-- ==== Sys2Proof/Word.lean ====
section
/-! DEFINITION. The word types of GVX-1608 (00 R10, R18) and the shape of sparse tables. -/
namespace Sys2Proof

/-- One byte of a memory, a frame or a flit. -/
abbrev Byte := BitVec 8
/-- A register or cluster address (00 R9, 01 R38). -/
abbrev Word := BitVec 32
/-- A 64-bit datum: the Datum's nanoseconds, a host transfer. -/
abbrev DWord := BitVec 64
/-- A V register (05 R192). -/
abbrev Vec := BitVec 128

/-- A numbered set of like things (registers, contexts, ports ...) by their cluster-wide number, in one canonical form:
keys strictly rising, no entry equal to what an unlisted key reads as (`Machine.Sparse.wf`). -/
abbrev Sparse (α : Type) := List (Nat × α)

end Sys2Proof
end

