-- ==== Sys2Proof/Syntax.lean ====
section
/-! DEFINITION. The commands of GVX-1608: one constructor of `Instr` per row of spec/opcode_table.json, and the types of
their operands. The table gives its rows no bit fields; each row's operands are the address, value, number or message that
the rule of the row names. -/
namespace Sys2Proof

/-- Who makes a register access (00 "Who may read and change", R19 to R22). -/
inductive Agent where
  /-- a context, by its cluster-wide ID (00 R8) -/
  | ctx (c : Nat)
  /-- a host requester, by its ID 0 to 31 (04 R129) -/
  | host (rid : Nat)
  /-- the debugger on the scan port; `consume` is the consume bit of 18 R604 -/
  | dbg (consume : Bool)
  deriving DecidableEq, Repr

/-- A flit as 13 R460 lays it out, without its CRC (a flit with a bad CRC is the command FLIT_CRC_ERROR) and with its
reserved fields zero (a flit with others is the command MALFORMED_FLIT). -/
structure Flit where
  /-- TYPE, 0x0 to 0xC (R461) -/
  typ : BitVec 4
  /-- virtual channel -/
  vc : BitVec 2
  /-- LACK is valid -/
  ackv : Bool
  /-- the next flit of this VC continues this message -/
  more : Bool
  /-- payload bytes in use, 0 to 32 -/
  len : BitVec 8
  /-- link sequence number -/
  lseq : BitVec 10
  /-- next link sequence number expected from the peer -/
  lack : BitVec 10
  /-- source tile -/
  src : BitVec 3
  /-- destination tile -/
  dst : BitVec 3
  /-- times forwarded -/
  fwd : BitVec 2
  /-- end-to-end sequence number (R469) -/
  eseq : BitVec 12
  /-- STAMP: parcel of the issuer -/
  parcel : BitVec 4
  /-- STAMP: privilege of the issuer -/
  priv : BitVec 2
  /-- STAMP: issuer kind, 0 context, 1 host, 2 debugger, 3 tile hardware -/
  kind : BitVec 2
  /-- context ID, host requester ID or 0 -/
  issuer : BitVec 16
  /-- transaction tag of a read and its response -/
  tag : BitVec 16
  /-- cluster address, or the type's own field -/
  addr : BitVec 32
  /-- byte enables, or the type's own field -/
  aux : BitVec 32
  /-- PAYLOAD, byte i in bits 8i+7:8i -/
  payload : BitVec 256
  deriving DecidableEq, Repr

/-- What the flash answers to the SFDP read (03 R91, R106 step 2). -/
structure Sfdp where
  /-- DWORDs of the Basic Flash Parameter Table -/
  dwords : Nat
  /-- log2 of the density in bytes -/
  log2size : Nat
  /-- fastest mode offered, as CFG_NVM_INFO.CAP encodes it -/
  cap : BitVec 2
  /-- the BFPT declares a quad-enable bit -/
  qe : Bool
  deriving DecidableEq, Repr

/-- What the surroundings and the links show during one run of the start sequence (03 R106): the power switches, the
flash's parameters, the key port, link training and Datum synchronisation. -/
structure StartEnv where
  /-- domains t*10+d whose power acknowledge follows within 1 ms (R106 step 2, 19 R634) -/
  acks : List Nat
  /-- the SFDP answer; `none` where no signature appears within 2 ms (reason 0x01) -/
  sfdp : Option Sfdp
  /-- every flash read of the load is answered in time (reason 0x20) -/
  readOk : Bool
  /-- KP_RD for the reads of step 5 in their order (04 R131, R134): root key words 0 to 7, keeper key digest words 0 to 11, counters 0 to 16;
  `none` for a read that is not acknowledged within 10 µs or is acknowledged with KP_ERR (R132) -/
  answers : List (Option Word)
  /-- links t*4+k that training brings into service, with `true` where at x8 (13 R466) -/
  links : List (Nat × Bool)
  /-- tiles whose Datum synchronisation is complete by the end of step 5 (13 R477, R478) -/
  synced : List Nat
  deriving DecidableEq, Repr

/-- How a link's training attempt ends (13 R457, R466). -/
inductive TrainResult where
  /-- in service at x16 -/
  | x16
  /-- in service at x8, on logical lanes 8 to 15 where `hi` -/
  | x8 (hi : Bool)
  /-- the attempt at the present width fails -/
  | failed
  /-- the peer reports another tile or link number than R456 names -/
  | wrongPeer
  deriving DecidableEq, Repr

/-- Who waits at a memory bank or arbiter (14 R497): an agent, or a frame port's receive or transmit side. -/
inductive Waiter where
  | agent (ag : Agent)
  | portRx (p : Nat)
  | portTx (p : Nat)
  deriving DecidableEq, Repr

/-- An entry held in two copies (14 R494) on the tile of the command. -/
inductive CopySite where
  /-- entry `i` of context `c`'s traverse buffer, those in release first -/
  | staged (c i : Nat)
  /-- entry `i` of queue `q` of port `p` -/
  | queued (p q i : Nat)
  /-- message `i` of mailbox `m` -/
  | message (m i : Nat)
  /-- the flit of an LSEQ in the replay buffer of link `k` -/
  | replay (k : Nat) (lseq : BitVec 10)
  /-- the flit of an ESEQ of source tile `src` and a VC in the resequencing store -/
  | held (src vc : Nat) (eseq : BitVec 12)
  deriving DecidableEq, Repr

/-- One read of the patrol scrub (14 R494, R495): whether the block's CRC holds, and the entries held in two copies whose first copy a fault
has struck since the read before (notes/assumptions/41.md). -/
structure ScrubRead where
  crcOk : Bool
  copies : List CopySite
  deriving DecidableEq, Repr

/-- A customer opcode's word (08 R296, R318): its bits 22:0, and for how many microwords at most it runs before the outside interrupts it
(notes/assumptions/20.md). -/
structure CustomerWord where
  bits : BitVec 23
  upTo : Nat
  deriving DecidableEq, Repr

/-- Where a code error or a handshake stall is detected (14 R497). Local numbers on the tile of the command. -/
inductive FaultSite where
  /-- an engine, a resident slot or its microstate; `c` the context executing, waiting or owning the slot -/
  | engine (e : Nat) (c : Nat)
  /-- a ROM word or ROM decode entry that context `c` fetches, with check bits that do not match (08 R292) -/
  | rom (e : Nat) (c : Nat)
  /-- the commit snapshot of context `c`, which cannot be read (14 R502) -/
  | snapshot (e : Nat) (c : Nat)
  /-- a memory bank, a memory arbiter or the register-bus arbiter, with those whose accesses wait -/
  | bank (waiting : List Waiter)
  /-- the host port, with the requester or debugger whose transfer it issued (14 R491) -/
  | hostPort (ag : Agent)
  /-- a frame port's receive side -/
  | portRx (p : Nat)
  /-- a frame port's transmit side -/
  | portTx (p : Nat)
  /-- a fly-through pair -/
  | pair (k : Nat)
  /-- the event controller, with the source whose state is affected; `second` where a repeated message stalls again -/
  | events (n : Nat) (second : Bool)
  /-- a pin sequencer -/
  | sequencer (n : Nat)
  /-- a PWM pair -/
  | pwm (p : Nat)
  /-- a chain link -/
  | link (k : Nat)
  /-- the security unit -/
  | security
  deriving DecidableEq, Repr

/-- The commands, in the table's order (RESERVED_OPCODE stands with the other instruction words). Operand names: `ag` the agent of a register access, `t` a tile, `c` a context ID,
`f` of a macro instruction bits 22:0 of its word (06 R224), `f` elsewhere a function or a flow, `v` the value written,
`n` of a block repeat the number of elements, of a customer instruction of microwords, that it does at most before the outside
interrupts it (07 R265, R269; 08 R318), `p` a port,
PWM pair or parcel, `k` a link or a fly-through pair, `m` a mailbox, `n` a source, sequencer, timer or lock, `i` a counter,
`e` an engine. Ports, pairs, sequencers, timers, PWM pairs, mailboxes and locks carry their cluster-wide number
(tile times the per-tile count, plus the local number). -/
inductive Instr where
  /-- CLUSTER_RESET (R647) -/
  | clusterReset
  /-- START_SEQUENCE (R106) -/
  | startSequence (env : StartEnv)
  /-- START_COMPLETE (R106) -/
  | startComplete
  /-- REGISTER_WRITE (R14) -/
  | registerWrite (ag : Agent) (addr : Word) (v : Word)
  /-- READ_CLEAR (R16) -/
  | readClear (ag : Agent) (addr : Word)
  /-- HOST_READ (R521) -/
  | hostRead (rid : Nat) (tag : BitVec 5) (addr : Word) (size : Nat)
  /-- HOST_WRITE (R521) -/
  | hostWrite (rid : Nat) (tag : BitVec 5) (addr : Word) (size : Nat) (data : BitVec 64)
  /-- HOST_RESPONSE_TAKEN (R518) -/
  | hostResponseTaken
  /-- HOST_RESPONSE_SLOW (R525) -/
  | hostResponseSlow
  /-- REFERENCE_LOST (R63) -/
  | referenceLost (t : Nat)
  /-- REFERENCE_OUT_OF_RANGE (R63) -/
  | referenceOutOfRange (t : Nat)
  /-- REFERENCE_RESUMED (R65) -/
  | referenceResumed (t : Nat)
  /-- TMR_DADJ_WRITE (R68) -/
  | tmrDadjWrite (ag : Agent) (t : Nat) (v : Word)
  /-- PACE_WINDOW_END (R77) -/
  | paceWindowEnd (t : Nat) (q0 q1 q2 q3 : Nat)
  /-- PACE_CTL_WRITE (R76) -/
  | paceCtlWrite (ag : Agent) (t : Nat) (v : Word)
  /-- RSTMIN (R81) -/
  | rstmin (ag : Agent) (t : Nat)
  /-- NVM_PORT_ACQUIRE (R94) -/
  | nvmPortAcquire (ag : Agent)
  /-- NVM_PORT_RELEASE (R94) -/
  | nvmPortRelease (ag : Agent)
  /-- NVM_READ_PAGE (R95) -/
  | nvmReadPage (ag : Agent) (gran : BitVec 14)
  /-- NVM_PROGRAM_PAGE (R95) -/
  | nvmProgramPage (ag : Agent) (gran : BitVec 14)
  /-- NVM_ERASE_SECTOR (R95) -/
  | nvmEraseSector (ag : Agent) (gran : BitVec 14)
  /-- NVM_COMMAND_ISSUE (R96) -/
  | nvmCommandIssue
  /-- NVM_COMMAND_DONE (R93) -/
  | nvmCommandDone
  /-- NVM_COMMAND_TIMEOUT (R93) -/
  | nvmCommandTimeout
  /-- FUNCTION_ENABLE (R119) -/
  | functionEnable (ag : Agent) (f : Nat)
  /-- FUNCTION_DISABLE (R112) -/
  | functionDisable (ag : Agent) (f : Nat)
  /-- FUNCTION_RELOAD (R123) -/
  | functionReload (ag : Agent) (f : Nat) (slot : Bool)
  /-- RELOAD_START (R124) -/
  | reloadStart
  /-- RELOAD_COMPLETE (R112) -/
  | reloadComplete (readOk : Bool)
  /-- FUNCTION_UNLOAD (R113) -/
  | functionUnload (ag : Agent) (f : Nat)
  /-- UNLOAD_ZERO_FILL_COMPLETE (R113) -/
  | unloadZeroFillComplete (f : Nat)
  /-- DRAIN_COMPLETE (R116) -/
  | drainComplete (f : Nat)
  /-- DRAIN_LIMIT_EXPIRED (R116) -/
  | drainLimitExpired (f : Nat)
  /-- KEY_PORT_ACKNOWLEDGE (R131) -/
  | keyPortAcknowledge (rd : Word) (err : Bool)
  /-- KEY_PORT_TIMEOUT (R132) -/
  | keyPortTimeout
  /-- KEY_PORT_TEST_ASSERT (R135) -/
  | keyPortTestAssert
  /-- KEY_PORT_TEST_DEASSERT (R135) -/
  | keyPortTestDeassert
  /-- GRANT_CHANGE (R161) -/
  | grantChange (ag : Agent) (p : Nat) (v : Word)
  /-- CHAL (R165) -/
  | chal (ag : Agent)
  /-- CHALLENGE_READY (R165) -/
  | challengeReady
  /-- CHALLENGE_EXPIRED (R165) -/
  | challengeExpired
  /-- UNLOCK_SUBMIT (R165) -/
  | unlockSubmit (ag : Agent) (v : Word)
  /-- UNLOCK_VERIFY_COMPLETE (R165) -/
  | unlockVerifyComplete
  /-- RELOCK (R166) -/
  | relock (ag : Agent)
  /-- UNLOCK_LIFE_EXPIRED (R166) -/
  | unlockLifeExpired
  /-- UNLOCK_WAIT_ELAPSED (R167) -/
  | unlockWaitElapsed
  /-- SEAL_REQUEST (R176) -/
  | sealRequest (ag : Agent) (v : Word)
  /-- SEAL_COMPLETE (R176) -/
  | sealComplete
  /-- TAG_GROUP_REBUILD (R151) -/
  | tagGroupRebuild (t g : Nat)
  /-- EVENT_PRESENTATION (R375) -/
  | eventPresentation (c : Nat)
  /-- ACCESS_COMPLETE (R190) -/
  | accessComplete (c : Nat)
  /-- STORE_COMPLETE (R200) -/
  | storeComplete (c : Nat)
  /-- COMMIT_RELEASE_ENTRY (R211) -/
  | commitReleaseEntry (c : Nat)
  /-- CTX_SW_WRITE (R196) -/
  | ctxSwWrite (ag : Agent) (c : Nat) (v : Word)
  /-- CTX_TSBP_WRITE (R194) -/
  | ctxTsbpWrite (ag : Agent) (c : Nat) (v : Word)
  /-- CTX_VDATA3_WRITE (R197) -/
  | ctxVdata3Write (ag : Agent) (c : Nat) (v : Word)
  /-- ADD (R256) -/
  | add (c : Nat) (f : BitVec 23)
  /-- SUB (R256) -/
  | sub (c : Nat) (f : BitVec 23)
  /-- AND (R256) -/
  | and (c : Nat) (f : BitVec 23)
  /-- OR (R256) -/
  | or (c : Nat) (f : BitVec 23)
  /-- XOR (R256) -/
  | xor (c : Nat) (f : BitVec 23)
  /-- ANDN (R256) -/
  | andn (c : Nat) (f : BitVec 23)
  /-- MUL (R256) -/
  | mul (c : Nat) (f : BitVec 23)
  /-- MULHU (R256) -/
  | mulhu (c : Nat) (f : BitVec 23)
  /-- MIN (R256) -/
  | min (c : Nat) (f : BitVec 23)
  /-- MAX (R256) -/
  | max (c : Nat) (f : BitVec 23)
  /-- MINU (R256) -/
  | minu (c : Nat) (f : BitVec 23)
  /-- MAXU (R256) -/
  | maxu (c : Nat) (f : BitVec 23)
  /-- ADDS (R256) -/
  | adds (c : Nat) (f : BitVec 23)
  /-- SUBS (R256) -/
  | subs (c : Nat) (f : BitVec 23)
  /-- NOT (R256) -/
  | not (c : Nat) (f : BitVec 23)
  /-- MOV (R256) -/
  | mov (c : Nat) (f : BitVec 23)
  /-- ADDI (R257) -/
  | addi (c : Nat) (f : BitVec 23)
  /-- ANDI (R257) -/
  | andi (c : Nat) (f : BitVec 23)
  /-- ORI (R257) -/
  | ori (c : Nat) (f : BitVec 23)
  /-- XORI (R257) -/
  | xori (c : Nat) (f : BitVec 23)
  /-- MULI (R257) -/
  | muli (c : Nat) (f : BitVec 23)
  /-- LI (R257) -/
  | li (c : Nat) (f : BitVec 23)
  /-- LIU (R257) -/
  | liu (c : Nat) (f : BitVec 23)
  /-- SHL (R258) -/
  | shl (c : Nat) (f : BitVec 23)
  /-- SHR (R258) -/
  | shr (c : Nat) (f : BitVec 23)
  /-- SAR (R258) -/
  | sar (c : Nat) (f : BitVec 23)
  /-- ROL (R258) -/
  | rol (c : Nat) (f : BitVec 23)
  /-- SHLI (R258) -/
  | shli (c : Nat) (f : BitVec 23)
  /-- SHRI (R258) -/
  | shri (c : Nat) (f : BitVec 23)
  /-- SARI (R258) -/
  | sari (c : Nat) (f : BitVec 23)
  /-- ROLI (R258) -/
  | roli (c : Nat) (f : BitVec 23)
  /-- LGET (R258) -/
  | lget (c : Nat) (f : BitVec 23)
  /-- LPUT (R258) -/
  | lput (c : Nat) (f : BitVec 23)
  /-- DUP (R258) -/
  | dup (c : Nat) (f : BitVec 23)
  /-- BSWAP (R258) -/
  | bswap (c : Nat) (f : BitVec 23)
  /-- CLZ (R258) -/
  | clz (c : Nat) (f : BitVec 23)
  /-- POPC (R258) -/
  | popc (c : Nat) (f : BitVec 23)
  /-- PERM (R258) -/
  | perm (c : Nat) (f : BitVec 23)
  /-- CEQ (R259) -/
  | ceq (c : Nat) (f : BitVec 23)
  /-- CNE (R259) -/
  | cne (c : Nat) (f : BitVec 23)
  /-- CLT (R259) -/
  | clt (c : Nat) (f : BitVec 23)
  /-- CLE (R259) -/
  | cle (c : Nat) (f : BitVec 23)
  /-- CLTU (R259) -/
  | cltu (c : Nat) (f : BitVec 23)
  /-- CLEU (R259) -/
  | cleu (c : Nat) (f : BitVec 23)
  /-- CANY (R259) -/
  | cany (c : Nat) (f : BitVec 23)
  /-- CEQI (R259) -/
  | ceqi (c : Nat) (f : BitVec 23)
  /-- CNEI (R259) -/
  | cnei (c : Nat) (f : BitVec 23)
  /-- CLTI (R259) -/
  | clti (c : Nat) (f : BitVec 23)
  /-- CLTUI (R259) -/
  | cltui (c : Nat) (f : BitVec 23)
  /-- LD8 (R260) -/
  | ld8 (c : Nat) (f : BitVec 23)
  /-- LD16 (R260) -/
  | ld16 (c : Nat) (f : BitVec 23)
  /-- LD32 (R260) -/
  | ld32 (c : Nat) (f : BitVec 23)
  /-- LD64 (R260) -/
  | ld64 (c : Nat) (f : BitVec 23)
  /-- LD128 (R260) -/
  | ld128 (c : Nat) (f : BitVec 23)
  /-- LDS8 (R260) -/
  | lds8 (c : Nat) (f : BitVec 23)
  /-- LDS16 (R260) -/
  | lds16 (c : Nat) (f : BitVec 23)
  /-- LDS32 (R260) -/
  | lds32 (c : Nat) (f : BitVec 23)
  /-- ST8 (R260) -/
  | st8 (c : Nat) (f : BitVec 23)
  /-- ST16 (R260) -/
  | st16 (c : Nat) (f : BitVec 23)
  /-- ST32 (R260) -/
  | st32 (c : Nat) (f : BitVec 23)
  /-- ST64 (R260) -/
  | st64 (c : Nat) (f : BitVec 23)
  /-- ST128 (R260) -/
  | st128 (c : Nat) (f : BitVec 23)
  /-- BZ (R264) -/
  | bz (c : Nat) (f : BitVec 23)
  /-- BNZ (R264) -/
  | bnz (c : Nat) (f : BitVec 23)
  /-- J (R264) -/
  | j (c : Nat) (f : BitVec 23)
  /-- CALL (R264) -/
  | call (c : Nat) (f : BitVec 23)
  /-- JR (R264) -/
  | jr (c : Nat) (f : BitVec 23)
  /-- CALLR (R264) -/
  | callr (c : Nat) (f : BitVec 23)
  /-- RMOV (R266) -/
  | rmov (c : Nat) (f : BitVec 23) (n : Nat)
  /-- RFILL (R266) -/
  | rfill (c : Nat) (f : BitVec 23) (n : Nat)
  /-- RCMP (R266) -/
  | rcmp (c : Nat) (f : BitVec 23) (n : Nat)
  /-- RSCAN (R266) -/
  | rscan (c : Nat) (f : BitVec 23) (n : Nat)
  /-- RCRC (R266) -/
  | rcrc (c : Nat) (f : BitVec 23) (n : Nat)
  /-- RSUM (R266) -/
  | rsum (c : Nat) (f : BitVec 23) (n : Nat)
  /-- COMMIT (R278) -/
  | commit (c : Nat) (f : BitVec 23)
  /-- WAIT (R278) -/
  | wait (c : Nat) (f : BitVec 23)
  /-- FENCE (R278) -/
  | fence (c : Nat) (f : BitVec 23)
  /-- TRAP (R282) -/
  | trap (c : Nat) (f : BitVec 23)
  /-- BRK (R282) -/
  | brk (c : Nat) (f : BitVec 23)
  /-- RFE (R352) -/
  | rfe (c : Nat) (f : BitVec 23)
  /-- MFS (R283) -/
  | mfs (c : Nat) (f : BitVec 23)
  /-- MTS_SW (R283) -/
  | mtsSw (c : Nat) (f : BitVec 23)
  /-- MTS_TSBP (R283) -/
  | mtsTsbp (c : Nat) (f : BitVec 23)
  /-- WDKICK (R361) -/
  | wdkick (c : Nat) (f : BitVec 23)
  /-- RDDAT (R286) -/
  | rddat (c : Nat) (f : BitVec 23)
  /-- PSQW (R275) -/
  | psqw (c : Nat) (f : BitVec 23)
  /-- PSQR (R275) -/
  | psqr (c : Nat) (f : BitVec 23)
  /-- SCHR (R442) -/
  | schr (c : Nat) (f : BitVec 23)
  /-- SCHR_STATUS (R277) -/
  | schrStatus (c : Nat) (f : BitVec 23)
  /-- SCHW (R276) -/
  | schw (c : Nat) (f : BitVec 23)
  /-- CRC32 (R274) -/
  | crc32 (c : Nat) (f : BitVec 23)
  /-- CRC16 (R274) -/
  | crc16 (c : Nat) (f : BitVec 23)
  /-- CSUM16 (R274) -/
  | csum16 (c : Nat) (f : BitVec 23)
  /-- PAIRED_WORD (R240) -/
  | pairedWord (c : Nat) (w : BitVec 31)
  /-- CUSTOMER_INSTRUCTION (R314) -/
  | customerInstruction (c : Nat) (op : BitVec 5) (f : CustomerWord)
  /-- RESERVED_OPCODE (R247) -/
  | reservedOpcode (c : Nat) (op : BitVec 8) (f : BitVec 23)
  /-- WATCHDOG_EXPIRED (R362) -/
  | watchdogExpired (p : Nat)
  /-- KICK (R364) -/
  | kick (ag : Agent) (p : Nat)
  /-- WATCHDOG_CONFIG_WRITE (R364) -/
  | watchdogConfigWrite (ag : Agent) (p : Nat) (v : Word)
  /-- EXCEPTION_RECORD_CLEAR (R356) -/
  | exceptionRecordClear (ag : Agent) (t p : Nat)
  /-- DOORBELL (R387) -/
  | doorbell (ag : Agent) (t : Nat) (v : Word)
  /-- PSET (R393) -/
  | pset (ag : Agent) (t n : Nat)
  /-- PCLR (R393) -/
  | pclr (ag : Agent) (t n : Nat)
  /-- EVENT_CLAIM (R382) -/
  | eventClaim (ag : Agent) (t p : Nat)
  /-- EVENT_HOST_COMPLETE (R380) -/
  | eventHostComplete (ag : Agent) (t p : Nat) (v : Word)
  /-- FRAME_RECEIVE_START (R405) -/
  | frameReceiveStart (p : Nat) (bytes : List Byte)
  /-- FRAME_RECEIVE_END (R402) -/
  | frameReceiveEnd (p : Nat) (rxer : Bool)
  /-- JABBER (R403) -/
  | jabber (p : Nat)
  /-- FLOW_CONSUME (R407) -/
  | flowConsume (ag : Agent) (p f : Nat) (v : Word)
  /-- TRANSMIT_POST (R412) -/
  | transmitPost (ag : Agent) (p : Nat) (v : Word)
  /-- TRANSMIT_FRAME_START (R416) -/
  | transmitFrameStart (p : Nat)
  /-- TRANSMIT_FRAME_END (R416) -/
  | transmitFrameEnd (p : Nat)
  /-- FLUSH (R417) -/
  | flush (ag : Agent) (p : Nat)
  /-- LINK_UP (R399) -/
  | linkUp (p : Nat) (speed : BitVec 2)
  /-- LINK_DOWN (R422) -/
  | linkDown (p : Nat) (cause : BitVec 2)
  /-- PAUSE_EXPIRED (R419) -/
  | pauseExpired (p q : Nat)
  /-- PAUSE_REFRESH_DUE (R420) -/
  | pauseRefreshDue (p : Nat)
  /-- PAUSE_WATCHDOG (R421) -/
  | pauseWatchdog (p q : Nat)
  /-- RATE_WINDOW_END (R411) -/
  | rateWindowEnd (t : Nat)
  /-- CHUNK_COMPLETE (R437) -/
  | chunkComplete (k : Nat)
  /-- CHUNK_RELEASE (R437) -/
  | chunkRelease (k : Nat)
  /-- SCHUSS_EGRESS_START (R438) -/
  | schussEgressStart (k : Nat)
  /-- IDLE_FLIT (R461) -/
  | idleFlit (t k : Nat) (fl : Flit)
  /-- WRITE_FLIT (R473) -/
  | writeFlit (t k : Nat) (fl : Flit)
  /-- READ_FLIT (R474) -/
  | readFlit (t k : Nat) (fl : Flit)
  /-- RDATA_FLIT (R474) -/
  | rdataFlit (t k : Nat) (fl : Flit)
  /-- DOORBELL_FLIT (R473) -/
  | doorbellFlit (t k : Nat) (fl : Flit)
  /-- MAILBOX_FLIT (R535) -/
  | mailboxFlit (t k : Nat) (fl : Flit)
  /-- KICK_FLIT (R361) -/
  | kickFlit (t k : Nat) (fl : Flit)
  /-- MIRWR_FLIT (R480) -/
  | mirwrFlit (t k : Nat) (fl : Flit)
  /-- MIRREQ_FLIT (R481) -/
  | mirreqFlit (t k : Nat) (fl : Flit)
  /-- MIRDAT_FLIT (R481) -/
  | mirdatFlit (t k : Nat) (fl : Flit)
  /-- SYNC_FLIT (R476) -/
  | syncFlit (t k : Nat) (fl : Flit)
  /-- CTRL_FLIT (R137) -/
  | ctrlFlit (t k : Nat) (fl : Flit)
  /-- NAK_FLIT (R464) -/
  | nakFlit (t k : Nat) (fl : Flit)
  /-- FLIT_CRC_ERROR (R464) -/
  | flitCrcError (t k : Nat) (fl : Flit) (crcBad : Bool)
  /-- LINK_PROGRESS_TIMEOUT (R465) -/
  | linkProgressTimeout (t k : Nat)
  /-- LINK_TRAINING_LOSS (R465) -/
  | linkTrainingLoss (t k : Nat)
  /-- LINK_TRAINING_END (R466) -/
  | linkTrainingEnd (t k : Nat) (res : TrainResult)
  /-- LINK_RETRY_TIMER (R466) -/
  | linkRetryTimer (t k : Nat)
  /-- RETRAIN (R466) -/
  | retrain (ag : Agent) (t k : Nat)
  /-- ESEQ_GAP_TIMEOUT (R471) -/
  | eseqGapTimeout (t src vc : Nat)
  /-- SYNC_EXCHANGE_DUE (R475) -/
  | syncExchangeDue (t : Nat)
  /-- SYNC_TIMEOUT (R477) -/
  | syncTimeout (t : Nat)
  /-- MIRROR_REQUEST_TIMEOUT (R482) -/
  | mirrorRequestTimeout (t : Nat)
  /-- DUAL_RAIL_CODE_ERROR (R490) -/
  | dualRailCodeError (t : Nat) (site : FaultSite) (xfer : Option Bool)
  /-- HANDSHAKE_STALL (R492) -/
  | handshakeStall (t : Nat) (site : FaultSite)
  /-- PATROL_SCRUB_READ (R495) -/
  | patrolScrubRead (t : Nat) (r : ScrubRead)
  /-- LOST_BLOCK_CLEAR (R501) -/
  | lostBlockClear (ag : Agent) (t : Nat) (v : Word)
  /-- FAULT_RECORD_CLEAR (R510) -/
  | faultRecordClear (ag : Agent) (t p : Nat)
  /-- UNACK (R513) -/
  | unack (ag : Agent) (t : Nat)
  /-- MAILBOX_SEND (R534) -/
  | mailboxSend (ag : Agent) (m : Nat) (v : Word)
  /-- MAILBOX_SEND_END (R534) -/
  | mailboxSendEnd (ag : Agent) (m : Nat) (v : Word)
  /-- MAILBOX_ACK (R537) -/
  | mailboxAck (ag : Agent) (m : Nat) (v : Word)
  /-- RRST (R539) -/
  | rrst (ag : Agent) (m : Nat)
  /-- LOCK_READ (R541) -/
  | lockRead (ag : Agent) (n : Nat)
  /-- LOCK_RELEASE (R543) -/
  | lockRelease (ag : Agent) (t : Nat) (v : Word)
  /-- LOCK_FORCE (R544) -/
  | lockForce (ag : Agent) (t : Nat) (v : Word)
  /-- SEQUENCER_BOUNDARY (R555) -/
  | sequencerBoundary (n : Nat) (pins : BitVec 64)
  /-- SEQUENCER_STALL_LIMIT (R563) -/
  | sequencerStallLimit (n : Nat)
  /-- SEQUENCER_START (R560) -/
  | sequencerStart (ag : Agent) (n : Nat)
  /-- SEQUENCER_STOP (R561) -/
  | sequencerStop (ag : Agent) (n : Nat)
  /-- FLUSHTX (R565) -/
  | flushtx (ag : Agent) (n : Nat)
  /-- FLUSHRX (R565) -/
  | flushrx (ag : Agent) (n : Nat)
  /-- SEQUENCER_PUSH (R565) -/
  | sequencerPush (ag : Agent) (n : Nat) (v : Word)
  /-- SEQUENCER_POP (R565) -/
  | sequencerPop (ag : Agent) (n : Nat)
  /-- SEQUENCER_PROGRAM_WRITE (R562) -/
  | sequencerProgramWrite (ag : Agent) (n : Nat) (off : BitVec 8) (v : Word)
  /-- SEQUENCER_FREEZE (R622) -/
  | sequencerFreeze (ag : Agent) (t : Nat) (v : Word)
  /-- TIMER_COMPARE_WRITE (R574) -/
  | timerCompareWrite (ag : Agent) (n : Nat) (v : Word)
  /-- TIMER_COMPARE_WRITE_IMMEDIATE (R574) -/
  | timerCompareWriteImmediate (ag : Agent) (n : Nat) (v : Word)
  /-- TIMER_COMPARE_MATCH (R575) -/
  | timerCompareMatch (n : Nat)
  /-- CAPTURE_EDGE (R578) -/
  | captureEdge (n : Nat) (rising : Bool)
  /-- CAPTURE_SNAPSHOT (R579) -/
  | captureSnapshot (ag : Agent) (n : Nat)
  /-- BLANKING_WINDOW_END (R580) -/
  | blankingWindowEnd (n : Nat)
  /-- CARRIER_ZERO (R590) -/
  | carrierZero (p : Nat)
  /-- CARRIER_TOP (R592) -/
  | carrierTop (p : Nat)
  /-- REFERENCE_CHANGE (R586) -/
  | referenceChange (p : Nat)
  /-- DEAD_TIME_END (R588) -/
  | deadTimeEnd (p : Nat) (dt : Nat)
  /-- TRIP (R593) -/
  | trip (p : Nat) (active : Bool)
  /-- FORCE (R593) -/
  | force (ag : Agent) (p : Nat)
  /-- TRIPCLR (R595) -/
  | tripclr (ag : Agent) (p : Nat)
  /-- PWM_COMMIT (R590) -/
  | pwmCommit (ag : Agent) (p : Nat)
  /-- PWM_START (R596) -/
  | pwmStart (ag : Agent) (p : Nat)
  /-- PWM_STOP (R596) -/
  | pwmStop (ag : Agent) (p : Nat)
  /-- PWM_PERIOD_WRITE (R585) -/
  | pwmPeriodWrite (ag : Agent) (p : Nat) (v : Word)
  /-- TAP_RESET (R609) -/
  | tapReset
  /-- IR_UPDATE (R601) -/
  | irUpdate (code : BitVec 5)
  /-- DACC_CAPTURE (R603) -/
  | daccCapture
  /-- DEBUG_READ (R604) -/
  | debugRead (addr : Word) (consume : Bool)
  /-- DEBUG_WRITE (R604) -/
  | debugWrite (addr : Word) (v : Word)
  /-- DEBUG_ACCESS_COMPLETE (R606) -/
  | debugAccessComplete
  /-- DSTAT_UPDATE (R608) -/
  | dstatUpdate (v : Word)
  /-- HALT (R611) -/
  | halt (ag : Agent) (t : Nat) (v : Word)
  /-- RESUME (R613) -/
  | resume (ag : Agent) (t : Nat) (v : Word)
  /-- STEP (R612) -/
  | step (ag : Agent) (t : Nat) (v : Word)
  /-- HALT_TAKES_EFFECT (R611) -/
  | haltTakesEffect (c : Nat)
  /-- COUNTER_CLAIM (R623) -/
  | counterClaim (ag : Agent) (t i : Nat)
  /-- COUNTER_RELEASE (R623) -/
  | counterRelease (ag : Agent) (t i : Nat)
  /-- COUNTER_WRITE (R626) -/
  | counterWrite (ag : Agent) (t i : Nat) (v : Word)
  /-- SNAPSHOT_NOW (R627) -/
  | snapshotNow (ag : Agent) (t p : Nat)
  /-- SNAPSHOT_ARM (R627) -/
  | snapshotArm (ag : Agent) (t p : Nat)
  /-- SNAPSHOT_DUE (R627) -/
  | snapshotDue (t p : Nat)
  /-- SAMPLER_CLAIM (R628) -/
  | samplerClaim (ag : Agent) (t e : Nat)
  /-- SAMPLER_RELEASE (R628) -/
  | samplerRelease (ag : Agent) (t e : Nat)
  /-- SAMPLE_REMOVE (R628) -/
  | sampleRemove (ag : Agent) (t e n : Nat)
  /-- POWER_DOWN (R636) -/
  | powerDown (ag : Agent) (t : Nat) (v : Word)
  /-- POWER_UP (R639) -/
  | powerUp (ag : Agent) (t : Nat) (v : Word)
  /-- REMOTE_WAKE_REQUEST (R640) -/
  | remoteWakeRequest (t : Nat)
  /-- POWER_ACKNOWLEDGE (R634) -/
  | powerAcknowledge (t d : Nat) (level : Bool)
  /-- POWER_ACK_TIMEOUT (R635) -/
  | powerAckTimeout (t d : Nat)
  /-- WAKE_COMPLETE (R641) -/
  | wakeComplete (t d : Nat) (ok : Bool)
  /-- PARCEL_SLOT_START (R170) -/
  | parcelSlotStart (t e : Nat)
  /-- MALFORMED_FLIT (R461) -/
  | malformedFlit (t k : Nat) (fl : Flit)
  deriving DecidableEq, Repr

end Sys2Proof
end

