-- ==== Sys2Proof/Decode.lean ====
section
/-! DEFINITION. Commands from words: spec/opcode_table.json gives its rows no bit fields, so no word spells a command by the
table's bits; the instruction words of 06, which contexts fetch from code memory, spell the commands of the macro instructions. -/
namespace Sys2Proof

/-- The command that a word of `nbits` bits spells: none, for the table gives no row bits. -/
def decodeTableWord (_nbits _w : Nat) : Option Instr := none

/-! ## The opcode map (06 R248) -/

/-- 0x00 to 0x2E: integer and logic, immediates, constants, shifts, lanes and bits. -/
def opsInteger : List (Nat × (Nat → BitVec 23 → Instr)) :=
  [(0x00, .add), (0x01, .sub), (0x02, .and), (0x03, .or), (0x04, .xor), (0x05, .andn), (0x06, .mul), (0x07, .mulhu), (0x08, .min),
   (0x09, .max), (0x0A, .minu), (0x0B, .maxu), (0x0C, .adds), (0x0D, .subs), (0x0E, .not), (0x0F, .mov), (0x10, .addi), (0x11, .andi),
   (0x12, .ori), (0x13, .xori), (0x14, .muli), (0x18, .li), (0x19, .liu), (0x20, .shl), (0x21, .shr), (0x22, .sar), (0x23, .rol),
   (0x24, .shli), (0x25, .shri), (0x26, .sari), (0x27, .roli), (0x28, .lget), (0x29, .lput), (0x2A, .dup), (0x2B, .bswap), (0x2C, .clz),
   (0x2D, .popc), (0x2E, .perm)]

/-- 0x40 to 0x85: compares, loads and stores, branches and jumps. -/
def opsMemory : List (Nat × (Nat → BitVec 23 → Instr)) :=
  [(0x40, .ceq), (0x41, .cne), (0x42, .clt), (0x43, .cle), (0x44, .cltu), (0x45, .cleu), (0x46, .cany), (0x50, .ceqi), (0x51, .cnei),
   (0x52, .clti), (0x53, .cltui), (0x60, .ld8), (0x61, .ld16), (0x62, .ld32), (0x63, .ld64), (0x64, .ld128), (0x65, .lds8),
   (0x66, .lds16), (0x67, .lds32), (0x68, .st8), (0x69, .st16), (0x6A, .st32), (0x6B, .st64), (0x6C, .st128), (0x80, .bz), (0x81, .bnz),
   (0x82, .j), (0x83, .call), (0x84, .jr), (0x85, .callr)]

/-- 0xA0 to 0xC2: system, sequencer and schuss access, checks, but for MTS and SCHR, which SEL divides. -/
def opsSystem : List (Nat × (Nat → BitVec 23 → Instr)) :=
  [(0xA0, .commit), (0xA1, .wait), (0xA2, .fence), (0xA3, .trap), (0xA4, .rfe), (0xA5, .mfs), (0xA7, .rddat), (0xA8, .brk), (0xB0, .psqw),
   (0xB1, .psqr), (0xB3, .schw), (0xC0, .crc32), (0xC1, .crc16), (0xC2, .csum16)]

/-- 0x90 to 0x95: block repeat, with the number of elements done at most. -/
def opsRepeat : List (Nat × (Nat → BitVec 23 → Nat → Instr)) :=
  [(0x90, .rmov), (0x91, .rfill), (0x92, .rcmp), (0x93, .rscan), (0x94, .rcrc), (0x95, .rsum)]

/-- The command of a long operation of context `c` with opcode `op` and bits 22:0 `f`; the table has three rows for MTS and two for SCHR,
told apart by SEL in bits 10:0 (07 R276, R283), and a SEL that neither names raises undefined-instruction under any of them. -/
def longOp (c : Nat) (op : BitVec 8) (f : BitVec 23) (n : Nat) : Instr :=
  match (opsInteger ++ opsMemory ++ opsSystem).lookup op.toNat, opsRepeat.lookup op.toNat with
  | some g, _ => g c f
  | none, some g => g c f n
  | none, none =>
    let sel := f.toNat % 2048
    if op = 0xA6 then (if sel = 1 then .mtsTsbp c f else if sel = 0x20 then .wdkick c f else .mtsSw c f)
    else if op = 0xB2 then (if sel = 1 then .schrStatus c f else .schr c f)
    else if 0xE0 ≤ op.toNat then .customerInstruction c (op.setWidth 5) ⟨f, n⟩
    else .reservedOpcode c op f

/-- The command that an instruction word fetched by context `c` spells (06 R221): bit 31 the format bit, a paired word's slots in bits
30:0, a long operation's OPC in bits 30:23; `n` the bound of a block repeat or a customer instruction before the outside interrupts it. -/
def insnOf (c : Nat) (w : Word) (n : Nat) : Instr :=
  if w.getLsbD 31 then .pairedWord c (w.setWidth 31) else longOp c (w.extractLsb' 23 8) (w.setWidth 23) n

end Sys2Proof
end

