-- ==== Sys2Proof/Config.lean ====
section
/-! DEFINITION. What an implementation fixes and the spec does not say: free values without a body
(notes/assumptions/9.md, 18.md). -/
namespace Sys2Proof.Config

/-- The ROM microword at a microaddress 0x0000 to 0x17FF (08 R288): its content is not given. Free value. -/
opaque romWord : Nat → BitVec 160
/-- ENTRY of the ROM decode entry of an opcode (08 R329): a ROM microaddress that is not given. Free value. -/
opaque romEntry : Nat → BitVec 13
/-- PRIV, CLASS and ENTRY bits of the ROM decode entry of a reserved opcode (08 R322 gives its VALID 0 only). Free value. -/
opaque romReserved : Nat → BitVec 32
/-- The microword steps an instruction took (08 R252 to R255 give worst cases only), by the free-value counter. Free value. -/
opaque stepsTaken : Nat → Nat
/-- The 32 random bytes of a challenge (04 R165), by the free-value counter. Free value. -/
opaque challenge : Nat → BitVec 256
/-- Any other value that the spec leaves open, by the free-value counter. Free value. -/
opaque freeWord : Nat → BitVec 32

end Sys2Proof.Config
end

