-- ==== Sys2Proof/Machine/Bits.lean ====
section
/-! DEFINITION. Bit fields (00 R10), byte order (R10) and the Datum's signed comparison (02 R57). -/
namespace Sys2Proof.Machine

/-- Bits lo+len-1:lo of a word, as a number. -/
def fld {n : Nat} (w : BitVec n) (lo len : Nat) : Nat := (w.toNat >>> lo) % 2 ^ len

/-- One bit of a word. -/
def bit {n : Nat} (w : BitVec n) (i : Nat) : Bool := w.getLsbD i

/-- `w` with bits lo+len-1:lo replaced by `v`. -/
def setFld {n : Nat} (w : BitVec n) (lo len v : Nat) : BitVec n :=
  (w &&& ~~~(BitVec.ofNat n ((2 ^ len - 1) <<< lo))) ||| BitVec.ofNat n ((v % 2 ^ len) <<< lo)

/-- `w` with bit i set to `b`. -/
def setBit {n : Nat} (w : BitVec n) (i : Nat) (b : Bool) : BitVec n := setFld w i 1 b.toNat

/-- The low `k` bytes of a number, least significant first (R10). -/
def leBytes : Nat → Nat → List Byte
  | 0, _ => []
  | k + 1, v => BitVec.ofNat 8 v :: leBytes k (v / 256)

/-- The number that bytes spell, least significant first (R10). -/
def leVal : List Byte → Nat
  | [] => 0
  | b :: bs => b.toNat + 256 * leVal bs

/-- The number that bytes spell, most significant first. -/
def beVal (bs : List Byte) : Nat := leVal bs.reverse

/-- `a` is at or after `b` (R57). -/
def atOrAfter (a b : DWord) : Bool := !(a - b).msb

/-- A bit map with the bits of the list set. -/
def ofBits (n : Nat) (l : List Nat) : BitVec n := l.foldl (fun w i => setBit w i true) 0

/-- Numbers from `a`, `k` of them. -/
def span (a k : Nat) : List Nat := (List.range k).map (a + ·)

/-- A word whose fields hold the listed values: low bit, width, value. -/
def fields (l : List (Nat × Nat × Nat)) : Word := l.foldl (fun w x => setFld w x.1 x.2.1 x.2.2) 0

/-- Saturating increment of a field of `len` bits at `lo`. -/
def bumpFld (w : Word) (lo len k : Nat) : Word := setFld w lo len (min (fld w lo len + k) (2 ^ len - 1))

/-- Update of one entry of a vector, at an index taken modulo nothing: beyond the end nothing changes. -/
def vset {α : Type} {n : Nat} (v : Vector α n) (i : Nat) (x : α) : Vector α n := v.setIfInBounds i x

/-- One entry of a vector, with a default beyond its end. -/
def vget {α : Type} {n : Nat} (d : α) (v : Vector α n) (i : Nat) : α := (v[i]?).getD d

end Sys2Proof.Machine
end

