-- ==== Sys2Proof/Machine/Crc.lean ====
section
/-! DEFINITION. Cyclic redundancy checks and the ones'-complement sum (07 R267, R274; the FCS of 11 R402, R414). -/
namespace Sys2Proof.Machine

/-- Bits shifted through a reflected CRC register with polynomial `poly`. -/
def crcBits (poly : BitVec 32) : Nat → BitVec 32 → BitVec 32
  | 0, c => c
  | n + 1, c => crcBits poly n (if c.getLsbD 0 then (c >>> 1) ^^^ poly else c >>> 1)

/-- One byte into the reflected CRC-32 of IEEE 802.3. -/
def crc32Byte (c : BitVec 32) (b : Byte) : BitVec 32 := crcBits 0xEDB88320 8 (c ^^^ b.setWidth 32)

/-- Bits shifted through a CRC-16 register, most significant bit first, polynomial 0x1021. -/
def crc16Bits : Nat → BitVec 16 → BitVec 16
  | 0, c => c
  | n + 1, c => crc16Bits n (if c.msb then (c <<< 1) ^^^ 0x1021 else c <<< 1)

/-- One byte into the CRC-16. -/
def crc16Byte (c : BitVec 16) (b : Byte) : BitVec 16 := crc16Bits 8 (c ^^^ (b.setWidth 16 <<< 8))

/-- The frame check sequence of a frame's bytes. -/
def fcsOf (bs : List Byte) : BitVec 32 := ~~~(bs.foldl crc32Byte 0xFFFFFFFF)

/-- CRC-32C of a flit's bytes (13 R460). -/
def crc32c (bs : List Byte) : BitVec 32 := ~~~(bs.foldl (fun c b => crcBits 0x82F63B78 8 (c ^^^ b.setWidth 32)) 0xFFFFFFFF)

/-- A frame with its FCS appended, or with the complement of it (12 R450). -/
def withFcs (bs : List Byte) (good : Bool) : List Byte :=
  bs ++ leBytes 4 (if good then fcsOf bs else ~~~(fcsOf bs)).toNat

/-- The last four bytes of a frame are its FCS. -/
def fcsOk (bs : List Byte) : Bool :=
  decide (4 ≤ bs.length) && leVal (bs.drop (bs.length - 4)) == (fcsOf (bs.take (bs.length - 4))).toNat

end Sys2Proof.Machine
end

