-- ==== Sys2Proof/Machine/Sparse.lean ====
section
/-! DEFINITION. Sparse tables in canonical form: keys strictly rising, no entry equal to the default. -/
namespace Sys2Proof.Machine

variable {α : Type}

/-- What key `k` reads as; `d` where it is not listed. -/
def sget (d : α) (m : Sparse α) (k : Nat) : α :=
  match m with
  | [] => d
  | (j, x) :: rest => if j = k then x else sget d rest k

/-- `m` without an entry for `k`. -/
def sdel (m : Sparse α) (k : Nat) : Sparse α :=
  match m with
  | [] => []
  | (j, x) :: rest => if j = k then sdel rest k else (j, x) :: sdel rest k

/-- `m`, which has no entry for `k`, with one inserted in order. -/
def sins (m : Sparse α) (k : Nat) (v : α) : Sparse α :=
  match m with
  | [] => [(k, v)]
  | (j, x) :: rest => if k < j then (k, v) :: (j, x) :: rest else (j, x) :: sins rest k v

/-- `m` with `k` reading as `v`; writing the default removes the entry. -/
def sput [DecidableEq α] (d : α) (m : Sparse α) (k : Nat) (v : α) : Sparse α :=
  if v = d then sdel m k else sins (sdel m k) k v

/-- The canonical form: keys above `lo` strictly rising, no entry equal to `d`. -/
def swfFrom [DecidableEq α] (d : α) : Nat → Sparse α → Bool
  | _, [] => true
  | lo, (k, v) :: rest => decide (lo ≤ k) && decide (v ≠ d) && swfFrom d (k + 1) rest

/-- The canonical form of a sparse table. -/
def swf [DecidableEq α] (d : α) (m : Sparse α) : Bool := swfFrom d 0 m

end Sys2Proof.Machine
end

