-- ==== Sys2Proof/Machine/State.lean ====
section
/-! DEFINITION. The state of GVX-1608 as plain data: every register, buffer, queue, counter, mode and pin the spec gives
the block (INVENTORY.md, "State"), and the queue of waiting commands. Field defaults are the reset values. -/
namespace Sys2Proof.Machine

/-! ## Contexts (05, 09) -/

/-- CTX_INFO.STATE (05 R183). -/
inductive CtxState where
  | free | parked | idle | ready | active | stalled | halted | locked
  deriving DecidableEq, Repr

/-- A store of 1 to 8 bytes on its way: posted (05 R200) or a traverse-buffer entry (R209). -/
structure Store where
  /-- cluster address -/
  addr : Word
  /-- width in bytes -/
  size : Nat
  /-- the datum, zero-extended -/
  data : DWord
  /-- of a traverse-buffer entry: the CRC of its first copy does not hold (14 R494) -/
  bad : Bool := false
  /-- of a posted store of a slot-mode engine: when it completes (04 R172) -/
  due : Option DWord := none
  deriving DecidableEq, Repr

/-- The commit snapshot (05 R208): V0 to V15, program counter and the fields of SW that a restore sets. -/
structure Snapshot where
  v : Vector Vec 16 := Vector.replicate 16 0
  pc : BitVec 20 := 0
  priv : BitVec 2 := 2
  exl : Bool := false
  ie : Bool := false
  rpt : Bool := false
  deriving DecidableEq, Repr

/-- What a STALLED context waits for (05 R183, R190). -/
inductive Wait where
  /-- nothing -/
  | none
  /-- room in its store queue (R200) -/
  | storeQueue
  /-- the release of a COMMIT (R211) -/
  | release
  /-- the response to the read it sent to another tile (13 R474): address, width, tag -/
  | remote (addr : Word) (size : Nat) (tag : BitVec 16)
  /-- that response, arrived (`none` a refusal), or a read of its own tile, performed: it goes on at ACCESS_COMPLETE, on a slot-mode
  engine not before `due` (04 R172) -/
  | answered (addr : Word) (size : Nat) (data : Option DWord) (due : Option DWord)
  /-- the read of HVEC and HCTL at an exception entry (09 R346), likewise -/
  | entry (due : Option DWord)
  /-- a transaction of its tile (R200) -/
  | transaction
  /-- completion of the chunk that SCHR waits for (12 R442) -/
  | chunk
  /-- a re-send of the code or microcode block it fetches (13 R481) -/
  | resend (block : Nat)
  deriving DecidableEq, Repr

/-- The microstate of a customer instruction (08 R295): it outlives a microword only within the instruction, and across a
suspension (08 R318). -/
structure Micro where
  /-- scratch registers T0 to T7 -/
  t : Vector Vec 8 := Vector.replicate 8 0
  /-- memory data register -/
  mdr : Vec := 0
  /-- memory address register -/
  mar : Word := 0
  /-- loop counter -/
  lc : BitVec 16 := 0
  /-- register index -/
  rx : BitVec 4 := 0
  /-- operand fields and immediate of the instruction word -/
  ir : BitVec 23 := 0
  /-- its opcode less 0xE0 -/
  op : BitVec 5 := 0
  /-- microstack, last pushed first -/
  stack : List Nat := []
  /-- result flags RZ, RE0Z, RANYZ, RN, RC, RV, RLSB of the last ALU operation (R303) -/
  flags : BitVec 7 := 0
  /-- next program counter -/
  npc : BitVec 20 := 0
  /-- next microaddress -/
  upc : Nat := 0
  /-- registers and flags as they were, for the undo (08 R311) -/
  undo : List (Nat × Vec) := []
  /-- SW.RPT at its start or last YIELD -/
  rptOld : Bool := false
  /-- operand-format class of its decode entry -/
  cls : Nat := 0
  /-- microwords executed since its start or last YIELD (R317) -/
  cnt : Nat := 0
  /-- the comparator whose breakpoint the next boundary raises (18 R620) -/
  brk : Option Nat := none
  /-- stores held back (08 R313) -/
  held : List Store := []
  deriving DecidableEq, Repr

/-- The merge buffers of a block-repeat instruction (07 R268): the doublewords held of the two sources (address, value), the merged store
not yet issued (address, bytes, datum), and a data breakpoint to raise at the next boundary. They last for one run of the instruction and
its stalls. -/
structure RepBuf where
  h13 : Option (Nat × Nat) := none
  h14 : Option (Nat × Nat) := none
  pend : Option (Nat × Nat × Nat) := none
  brk : Option Nat := none
  deriving DecidableEq, Repr

/-- An exception entry in progress (09 R346): what it writes, and the event's vector for an event. -/
structure Entering where
  cause : Nat
  detail : Nat
  addr : Word
  epc : BitVec 20
  vec : Option (BitVec 20)
  deriving DecidableEq, Repr

/-- Why a debugger's halt of a context was requested (18 R611, R614). -/
inductive HaltCause where
  | none | request | step | brk | comparator (n : Nat) | crossHalt | notice
  deriving DecidableEq, Repr

/-- One context: its architectural state (05 R192) and what the tile keeps for it. -/
structure Ctx where
  v : Vector Vec 16 := Vector.replicate 16 0
  pc : BitVec 20 := 0
  priv : BitVec 2 := 2
  exl : Bool := false
  ie : Bool := false
  rpt : Bool := false
  tsbp : Word := 0
  /-- uncommitted traverse-buffer entries, oldest first -/
  tb : List Store := []
  /-- committed entries being released (R211, R212) -/
  rel : List Store := []
  snap : Snapshot := {}
  st : CtxState := .free
  /-- resident in a slot of its engine (R181) -/
  resident : Bool := false
  /-- an activation is in progress (R184) -/
  act : Bool := false
  /-- the activation ends when the release is complete (07 R280) -/
  ending : Bool := false
  /-- stopped at a COMMIT in a drain (03 R116) -/
  stopped : Bool := false
  /-- a restart that waits for the end of the release (R212) -/
  restart : Bool := false
  /-- posted stores in flight, oldest first (R200) -/
  stores : List Store := []
  wait : Wait := .none
  /-- reads of other tiles answered for the instruction in progress (R190): address, width, datum or refusal -/
  got : List (Word × Nat × Option DWord) := []
  micro : Option Micro := none
  rep : RepBuf := {}
  ecause : Word := 0
  edetail : Word := 0
  eaddr : Word := 0
  epc : Word := 0
  /-- EXENT (09 R346) and the entry that it stands for -/
  exent : Bool := false
  entering : Option Entering := none
  /-- when the context last ran, for the waiting order of R186 -/
  ran : Nat := 0
  /-- ACTIVE when its parcel's slot ended: it goes on before its equals (04 R170) -/
  slotHeld : Bool := false
  haltReq : HaltCause := .none
  /-- a single step is in progress (18 R612), with STEPEV -/
  stepping : Bool := false
  stepEv : Bool := false
  /-- it has begun the instruction at its program counter and stalled in it (18 R611) -/
  mid : Bool := false
  /-- EVC_CTX.ASRC (10 R394) -/
  asrc : BitVec 10 := 0x3FF
  /-- EVC_CTX.ISRC (10 R394) -/
  isrc : BitVec 10 := 0x3FF
  /-- open mailbox message: mailbox number and words (15 R534) -/
  msg : Option (Nat × List Word) := none
  /-- _LO writes held for the next _HI: register key and value (00 R18) -/
  lo : List (Nat × Word) := []
  vsel : BitVec 4 := 0
  /-- held lanes of CTX_VDATA0 to 2 (R197): lane and value -/
  vheld : List (Nat × Word) := []
  deriving DecidableEq, Repr

/-- One engine (09 R358, 14 R499). -/
structure Engine where
  locked : Bool := false
  retired : Bool := false
  /-- Datum times of its last engine faults, newest first -/
  faults : List DWord := []
  deriving DecidableEq, Repr

/-! ## Event sources (10) -/

/-- One event source (10 R370, R384, R391). -/
structure Src where
  pend : Bool := false
  act : Bool := false
  lvl : Bool := false
  miss : Bool := false
  /-- AON latches -/
  edge : Bool := false
  lvlc : Bool := false
  /-- binding loaded at an accepted enable -/
  loaded : Bool := false
  fn : Nat := 0
  host : Bool := false
  prio : BitVec 8 := 0
  /-- target local context -/
  tgt : Nat := 0
  /-- the context (local number) it is active for; `none` while active for a host -/
  holder : Option Nat := none
  deriving DecidableEq, Repr

/-! ## The accepted header, schedules and functions (03) -/

/-- A parcel-table entry (03 R100). -/
structure ParcelEntry where
  quiet : Bool := false
  bootSlot : Bool := false
  ceiling : BitVec 2 := 0
  areaBase : Nat := 0
  areaSize : Nat := 0
  hostGrant : Word := 0
  keyDigest : BitVec 384 := 0
  deriving DecidableEq, Repr

/-- A REGIONS entry with its valid bit set (03 R101). -/
structure Region where
  tile : Nat
  first : Nat
  count : Nat
  host : Bool
  deriving DecidableEq, Repr

/-- A function descriptor (03 R101); the bit maps as numbers, bit n for resource n. -/
structure FnDesc where
  parcel : Nat := 0
  auto : Bool := false
  dlim : BitVec 8 := 1
  ctxs : Nat := 0
  ports : Nat := 0
  pairs : Nat := 0
  psqs : Nat := 0
  tmrs : Nat := 0
  pwms : Nat := 0
  mbxs : Nat := 0
  /-- used DOORBELLS entries: tile, source -/
  doorbells : List (Nat × Nat) := []
  regions : List Region := []
  deriving DecidableEq, Repr

/-- The accepted header (03 R99, R652). -/
structure Hdr where
  slot : Bool := false
  timekeeper : Nat := 0xFF
  epoch : BitVec 16 := 0
  imageId : BitVec 64 := 0
  /-- parcel table in its order -/
  parcels : List (Nat × ParcelEntry) := []
  fns : List FnDesc := []
  /-- HDR_KEY: X and Y -/
  keyX : Nat := 0
  keyY : Nat := 0
  deriving DecidableEq, Repr

/-- A context record of a schedule (03 R105). -/
structure CtxRec where
  ctx : Nat
  eng : Nat
  cls : Nat
  prio : Nat
  budget : Nat
  /-- every reserved byte and unused bit is 0 -/
  clean : Bool
  deriving DecidableEq, Repr

/-- A source record of a schedule. -/
structure SrcRec where
  tile : Nat
  n : Nat
  tgt : Nat
  prio : Nat
  deadline : Nat
  clean : Bool
  deriving DecidableEq, Repr

/-- A pair record of a schedule. -/
structure PairRec where
  pair : Nat
  ctx : Nat
  budget : Nat
  clean : Bool
  deriving DecidableEq, Repr

/-- A loaded schedule. -/
structure Sched where
  compat : BitVec 16 := 0
  ctxs : List CtxRec := []
  srcs : List SrcRec := []
  pairs : List PairRec := []
  /-- the head's reserved bytes are 0 and the lists lie inside the section -/
  clean : Bool := true
  deriving DecidableEq, Repr

/-- FN_STATUS.STATE (03 "Function states"). -/
inductive FnState where
  | unloaded | loading | quiescent | running | draining
  deriving DecidableEq, Repr

/-- One function (03 R112 to R126). -/
structure Fn where
  st : FnState := .unloaded
  reason : BitVec 8 := 0
  forced : Bool := false
  gen : BitVec 8 := 0
  dlim : BitVec 8 := 0
  slot : Bool := false
  epoch : BitVec 16 := 0
  sched : Option Sched := none
  /-- enabled once since it was last UNLOADED (11 R401, 12 R436) -/
  everOn : Bool := false
  /-- Datum time of tile 0 at which the drain limit ends (R116) -/
  drainAt : Option DWord := none
  /-- sections of a tile that was unreachable at start have not been placed (13 R485) -/
  unplaced : Bool := false
  /-- a reload's own record of what it may not yet place: zero-fill behind an unload (R113) -/
  zeroing : Bool := false
  /-- an unload waits for the end of microsequences that began at the function's entries (R113, 08 R326) -/
  leaving : Bool := false
  deriving DecidableEq, Repr

/-! ## Writable stores (08) -/

/-- A writable microword with its parcel tag and the function that placed it (04 R154, 08 R331). -/
structure UWord where
  w : BitVec 160 := 0
  tag : BitVec 4 := 0
  fn : Option Nat := none
  deriving DecidableEq, Repr

/-- A writable decode entry (08 R321) and the function that placed it. -/
structure Dec where
  w : Word := 0
  fn : Option Nat := none
  deriving DecidableEq, Repr

/-- A 64-byte code block's tag and the function that placed it (04 R153). -/
structure CodeTag where
  tag : BitVec 4 := 0
  fn : Option Nat := none
  deriving DecidableEq, Repr

/-- A mirrored 64-byte block (13 R480): its bytes as one number, byte i in bits 8i+7:8i. -/
structure Mirror where
  data : BitVec 512 := 0
  placed : Bool := false
  deriving DecidableEq, Repr

/-! ## Frame ports and fly-through pairs (11, 12) -/

/-- An entry of a transmit queue (11 R412). -/
structure TxEntry where
  addr : BitVec 22
  tagi : Bool
  tsreq : Bool
  note : Bool
  len : Nat
  /-- the CRC of its first copy does not hold (14 R494) -/
  bad : Bool := false
  deriving DecidableEq, Repr

/-- A transmit queue. -/
structure TxQ where
  entries : List TxEntry := []
  done : BitVec 16 := 0
  /-- end of the received pause, Datum ns -/
  pausedTo : Option DWord := none
  /-- start of the uninterrupted pause -/
  pausedAt : Option DWord := none
  deriving DecidableEq, Repr

/-- A frame held in a flow's rings: its first granule, its granules, and those skipped at the ring's end. -/
structure Held where
  gran : Nat
  count : Nat
  skip : Nat
  deriving DecidableEq, Repr

/-- A receive flow (11 R404 to R411). -/
structure Flow where
  prod : BitVec 16 := 0
  cons : BitVec 16 := 0
  seq : Word := 0
  /-- next granule, counted from FIRST -/
  next : Nat := 0
  /-- unconsumed records, oldest first -/
  recs : List Held := []
  /-- admitted and refused frames of the window `win`, Datum bits 63:20 (R411) -/
  rl : Nat := 0
  win : DWord := 0
  deriving DecidableEq, Repr

/-- The frame a port is receiving (11 R402 to R405). -/
structure RxFrame where
  bytes : List Byte
  /-- the Datum at its first byte -/
  at_ : DWord := 0
  ns : DWord
  frac : BitVec 16
  /-- the flow that admitted it, with its first granule and the granules skipped before it -/
  flow : Option (Nat × Nat × Nat) := none
  /-- the drop counter of R402 that it falls to, if it is not admitted -/
  drop : Option Nat := none
  /-- longer than 4 x MAXLEN byte times (R403) -/
  jab : Bool := false
  /-- a fault dropped it after admission (14 R497) -/
  faulted : Bool := false
  /-- the pair of the port takes it -/
  taken : Bool := false
  deriving DecidableEq, Repr

/-- The frame a port is sending: from a queue, or its own PAUSE or PFC frame. -/
structure TxFrame where
  /-- queue, or `none` for an own pause frame -/
  q : Option Nat
  ent : Option TxEntry
  /-- bytes from the destination address through the FCS -/
  bytes : List Byte
  deriving DecidableEq, Repr

/-- One frame port. -/
structure Port where
  up : Bool := false
  speed : BitVec 2 := 0
  /-- the PHY's last report with LSRC 1: full duplex at this speed -/
  report : Option (BitVec 2) := none
  rx : Option RxFrame := none
  tx : Option TxFrame := none
  /-- MAC_FCSTAT.XOFF -/
  xoff : BitVec 8 := 0
  /-- the frames that hold them are PFC frames -/
  xoffPfc : Bool := false
  /-- a pause frame is due at this Datum time -/
  refreshAt : Option DWord := none
  /-- SEQ of the next transmit stamp -/
  tsSeq : Word := 0
  /-- Datum time at which the last frame on the port's transmit side ends -/
  busyTo : DWord := 0
  /-- the last frame the port put on the wire: its output -/
  sent : List Byte := []
  deriving DecidableEq, Repr

/-- A frame in a pair's window (12 R437 to R451). -/
structure PairFrame where
  bytes : List Byte
  /-- TSIN and TSOUT as fixed at the start -/
  tsin : DWord
  tsout : DWord
  delta : Nat
  /-- byte time, ns -/
  bt : Nat
  /-- the Datum at its start, and when its first byte starts on the egress port (R438, R439) -/
  at_ : DWord := 0
  dep : DWord := 0
  /-- D of R437 -/
  d : Nat := 24
  /-- longer than MAXLEN: it ends there (R451) -/
  cut : Bool := false
  /-- when its chunks completed, and when chunk 0 was released (R437) -/
  doneAt : List DWord := []
  relAt : DWord := 0
  /-- when the pair's frame before it ends on the egress port -/
  busyBefore : DWord := 0
  fwd : Bool
  owed : Bool
  /-- an activation has started for it -/
  served : Bool := false
  /-- its start-of-frame is held (R441) -/
  held : Bool := false
  /-- chunks complete, released -/
  complete : Nat := 0
  released : Nat := 0
  /-- lowest chunk not yet read -/
  next : Nat := 0
  /-- accepted replacements: chunk and bytes -/
  repl : List (Nat × Vec) := []
  /-- activation over: chunks released from then on are not late -/
  closed : Bool := false
  /-- an engine fault abandoned it for the context (R446) -/
  abandoned : Bool := false
  late : Bool := false
  lateCh : Nat := 0
  lateWr : Nat := 0
  /-- late flag to set on byte LOFF; complement the FCS for lateness -/
  flag : Bool := false
  inval : Bool := false
  /-- untagged frame of type 0x8808 -/
  control : Bool := false
  /-- the received frame has ended, with an error or below 64 bytes or cut -/
  ended : Bool := false
  bad : Bool := false
  /-- its first byte has started on the egress port -/
  started : Bool := false
  /-- it counts in NOFWD -/
  noFwd : Bool := false
  /-- a fault of the pair: it is sent with the complemented FCS (14 R497) -/
  faulted : Bool := false
  /-- the pair's counters, and the egress port's, hold it -/
  counted : Bool := false
  txDone : Bool := false
  /-- bytes sent or to be sent so far -/
  out : List Byte := []
  deriving DecidableEq, Repr

/-- One fly-through pair. -/
structure Pair where
  /-- frames held, oldest first -/
  frames : List PairFrame := []
  /-- the present activation was started by a start-of-frame -/
  serving : Bool := false
  /-- chunk that SCHR read last, still current -/
  cur : Option Nat := none
  /-- SCHR found no chunk -/
  nochunk : Bool := false
  /-- Datum time at which the pair's last forwarded frame ends -/
  busyTo : DWord := 0
  /-- since a wake of PORT its two links have not both retrained (R455) -/
  asleep : Bool := false
  /-- CFG_SCHk_CFG has been written since cluster reset (R433) -/
  written : Bool := false
  deriving DecidableEq, Repr

/-! ## Pin sequencers, timers, PWM pairs (16, 17) -/

/-- PSQn_STAT.STATE (16 R559). -/
inductive SeqState where
  | stopped | running | stalled | armed
  deriving DecidableEq, Repr

/-- Where a sequencer waits inside a word boundary (16 R557). -/
inductive SeqHold where
  | none | room | word
  deriving DecidableEq, Repr

/-- One pin sequencer (its settings and sticky bits stand in `State.regs`). -/
structure Seq where
  st : SeqState := .stopped
  pc : BitVec 5 := 0
  bc : Nat := 0
  sr : Word := 0
  tx : List Word := []
  rx : List Word := []
  mtch : Bool := false
  /-- ticks the present program word has taken -/
  ticks : Nat := 0
  /-- a step with IE was made in this data word -/
  sawIn : Bool := false
  /-- a shift step whose in bits and shift are due at the next boundary: OE, IE, HUNT -/
  due : Option (Bool × Bool × Bool) := none
  hold : SeqHold := .none
  /-- time of boundary 0 in 1/256 ns of the Datum (R551), and the boundaries since it -/
  base : Nat := 0
  bounds : Nat := 0
  /-- the sources at which TXSRC and RXSRC stand asserted (R566, 10 R370) -/
  txAt : Option Nat := none
  rxAt : Option Nat := none
  /-- stopped by a freeze (18 R622) -/
  frozen : Bool := false
  deriving DecidableEq, Repr

/-- One timer channel. -/
structure Tmr where
  armed : Bool := false
  /-- full count at which the compare was armed -/
  base : DWord := 0
  /-- distance still to cover from `base` -/
  dist : Nat := 0
  capr : DWord := 0
  capf : DWord := 0
  fresh : Bool := false
  ovr : Bool := false
  snapR : DWord := 0
  snapF : DWord := 0
  snapW : Word := 0
  /-- pending opening edge (mode 1) -/
  opening : Option DWord := none
  /-- accepted edges counted by the prescaler (mode 2) -/
  edges : Nat := 0
  /-- count at which the blanking window of mode 3 started -/
  blank : Option DWord := none
  deriving DecidableEq, Repr

/-- PWMp_STAT.STATE (17 R596). -/
inductive PwmState where
  | off | running | tripped
  deriving DecidableEq, Repr

/-- One PWM pair. -/
structure Pwm where
  st : PwmState := .off
  carrier : BitVec 16 := 0
  up : Bool := true
  per : BitVec 16 := 0
  duty : BitVec 16 := 0
  dfrac : BitVec 4 := 0
  acc : BitVec 4 := 0
  /-- effective compare of this period -/
  eff : Nat := 0
  /-- reference signal R -/
  r : Bool := false
  /-- outputs: driven, on -/
  oe : Bool := false
  aOn : Bool := false
  bOn : Bool := false
  /-- a turn-on is pending: `true` for A -/
  due : Option Bool := none
  pend : Bool := false
  /-- trip input active -/
  lvl : Bool := false
  ftrip : Bool := false
  /-- tripped and not re-armed (R595) -/
  tripf : Bool := false
  /-- cleared; outputs wait for the next carrier zero -/
  rearm : Bool := false
  /-- shadows written since the last load -/
  wPer : Bool := false
  wDuty : Bool := false
  /-- one load without the other at the last zero: `some true` a PER load -/
  lone : Option Bool := none
  zc : Nat := 0
  tc : Nat := 0
  cc : Nat := 0
  deriving DecidableEq, Repr

/-! ## Mailboxes (15) -/

/-- A delivered message. -/
structure Msg where
  words : List Word
  stamp : Word
  seq : BitVec 16
  /-- the CRC of its first copy does not hold (14 R494) -/
  bad : Bool := false
  deriving DecidableEq, Repr

/-- One mailbox. -/
structure Mbx where
  msgs : List Msg := []
  /-- SEQ of the next message -/
  seq : BitVec 16 := 0
  /-- the source at which MSGSRC stands asserted (R538, 10 R370) -/
  msgAt : Option Nat := none
  deriving DecidableEq, Repr

/-! ## Performance counters and samplers (18) -/

/-- One counter. -/
structure Pmc where
  owner : Option (BitVec 4) := none
  cnt : BitVec 48 := 0
  snap : BitVec 48 := 0
  deriving DecidableEq, Repr

/-- One sampling entry (18 R629). -/
structure Sample where
  w0 : Word := 0
  w1 : Word := 0
  w2 : Word := 0
  w3 : Word := 0
  deriving DecidableEq, Repr

/-- One sampler. -/
structure Smp where
  owner : Option (BitVec 4) := none
  /-- ring of 64 entries by slot -/
  ring : Sparse Sample := []
  count : Nat := 0
  head : BitVec 6 := 0
  ovr : Bool := false
  occ : Nat := 0
  deriving DecidableEq, Repr

/-! ## Chain links (13) -/

/-- LNK_k_STAT.STATE (13 R467). -/
inductive LinkState where
  | down | training | up | degraded | failed
  deriving DecidableEq, Repr

/-- One chain link. -/
structure Link where
  st : LinkState := .down
  /-- at x8: lanes 8 to 15 -/
  lanesHi : Bool := false
  x8 : Bool := false
  /-- next LSEQ to send; next LSEQ expected -/
  next : BitVec 10 := 0
  expect : BitVec 10 := 0
  /-- a NAK for `expect` has been sent -/
  naked : Bool := false
  /-- replay buffer, oldest first: the flit and how often it was sent -/
  replay : List (Flit × Nat) := []
  /-- flits waiting for room in the replay buffer or for a credit -/
  queue : List Flit := []
  /-- credits per VC -/
  credits : Vector Nat 4 := Vector.replicate 4 32
  /-- of VCs 0 to 2, the one that sent last (R463) -/
  rr : BitVec 2 := 2
  /-- acknowledged flits that the peer still holds, each with its credit (R469) -/
  kept : List Flit := []
  /-- received flits that find no room in the resequencing store (R463, R469) -/
  rxBuf : List Flit := []
  /-- LSEQ of the replay entries of whose copies the first one's CRC does not hold (14 R494) -/
  badReplay : List (BitVec 10) := []
  /-- the link's output: the 64 bytes of the last flit that it sent (R460) -/
  sent : List Byte := []
  /-- Datum time of the last progress of LACK -/
  progress : DWord := 0
  /-- the attempt in progress is at x8 -/
  tryX8 : Bool := false
  /-- Datum time at which both attempts had failed -/
  failedAt : DWord := 0
  /-- sequenced flits accepted since reset -/
  accepted : Nat := 0
  /-- declared failed since it was last in service (R465, R466) -/
  declared : Bool := false
  /-- in service once since reset -/
  served : Bool := false
  deriving DecidableEq, Repr

/-- ESEQ expected from one source tile on one VC (13 R469, R471). -/
structure EseqIn where
  expect : BitVec 12 := 0
  /-- held flits with the Datum time of their arrival -/
  held : List (Flit × DWord) := []
  /-- ESEQ of the held flits of whose copies the first one's CRC does not hold (14 R494) -/
  bad : List (BitVec 12) := []
  /-- refused until re-synchronisation -/
  refused : Bool := false
  deriving DecidableEq, Repr

/-- A tile's Datum synchronisation (13 R475 to R477). -/
structure SyncSt where
  /-- t1 of the request in flight -/
  t1 : Option DWord := none
  /-- time of the last request -/
  asked : Option DWord := none
  /-- last values of θ in 2^-8 ns, newest first, at most eight -/
  thetas : List Int := []
  /-- completion of the last exchange -/
  last : DWord := 0
  /-- parent of the last exchange -/
  parent : Nat := 0
  /-- SYNC has been 1 since cluster reset, or step 5 of the start sequence has ended (14 R516) -/
  once : Bool := false
  deriving DecidableEq, Repr

/-- A command of the power controller in progress (19). -/
structure PwrCmd where
  up : Bool
  dom : Nat
  deriving DecidableEq, Repr

/-- What one tile holds beside its numbered units. -/
structure Tile where
  /-- Datum: nanoseconds and fraction in units of 2^-40 ns (02) -/
  ns : DWord := 0
  frac : BitVec 40 := 0
  /-- good pace windows in a row, by quad -/
  goodWin : Vector Nat 4 := Vector.replicate 4 0
  /-- quads that woke in the present pace window (02 R79) -/
  paceNew : BitVec 4 := 0
  /-- tag groups under rebuild -/
  rebuild : List Nat := []
  /-- lost-block table by entry: block and parcel (14 R500) -/
  lost : Sparse (Option (Nat × BitVec 4)) := []
  /-- half of a mirrored or re-sent block already taken: block key, half 0 -/
  half : List (Nat × BitVec 256) := []
  /-- requests to the partner that wait, with the Datum time of the request: block b to re-send, b + 32768 to reload at a wake of its quad,
  b + 65536 to repair the mirror copy -/
  resend : List (Nat × DWord) := []
  /-- quads of whose reload a block was answered without a good copy (19 R643) -/
  wakeBad : BitVec 4 := 0
  /-- next ESEQ by destination * 4 + VC -/
  eseqOut : Sparse (BitVec 12) := []
  /-- by source * 4 + VC -/
  eseqIn : Sparse EseqIn := []
  /-- links the peers report as live: tile * 4 + link -/
  peers : List Nat := []
  sync : SyncSt := {}
  /-- the tile key (04 R137) -/
  key : Option (BitVec 384) := none
  /-- on tiles other than 0: the unlock grant that tile 0 delivered (04 R165): parcel and scope -/
  unl : Option (BitVec 4 × BitVec 3) := none
  /-- words of a mailbox message arriving by MORE, by source tile -/
  inbox : List (Nat × List Word) := []
  /-- GP pins: output values, enables, filtered input levels (16) -/
  gpOut : BitVec 64 := 0
  gpOe : BitVec 64 := 0
  gpIn : BitVec 64 := 0
  scrubPos : Nat := 0
  scrubStart : DWord := 0
  /-- power requests, acknowledges, stale domains, bit d (19) -/
  req : BitVec 10 := 1
  ack : BitVec 10 := 1
  stale : BitVec 10 := 0
  pcmd : Option PwrCmd := none
  /-- a wake request of tile 0 is on its way over the sidebands (R639, R640) -/
  wakeReq : Bool := false
  /-- transaction tag of the next remote read -/
  tag : BitVec 16 := 0
  /-- status words last sent to the mirrors of tile 0 (15 R528): FLT_STAT, mailbox bits, event bits -/
  mirSent : Word × Word × Word := (0, 0, 0)
  /-- clock for the waiting order of contexts (05 R186) -/
  tick : Nat := 0
  deriving DecidableEq, Repr

/-! ## NVM port, security unit, host port, debug (03, 04, 15, 18) -/

/-- A flash command accepted by the NVM port (03 R95). -/
structure NvmCmd where
  op : BitVec 2
  page : BitVec 20
  gran : BitVec 14
  /-- the owner that wrote it -/
  by_ : Word
  /-- its flash traffic has started -/
  issued : Bool
  deriving DecidableEq, Repr

/-- The NVM port. -/
structure Nvm where
  /-- the owner's identity, 0 while free -/
  owner : Word := 0
  /-- owned by the start sequence for good (R108) -/
  startOwned : Bool := false
  cmd : Option NvmCmd := none
  /-- reloads that wait, in order: function * 2 + directory slot -/
  reloads : List Nat := []
  /-- the reload that is reading, likewise -/
  reading : Option Nat := none
  /-- faults of the security unit while that reload's items were verified (14 R497) -/
  secHits : Nat := 0
  deriving DecidableEq, Repr

/-- A seal in progress (04 R176): target, epoch, and whether the read-back is under way. -/
structure Seal where
  target : Nat
  epoch : BitVec 16
  readBack : Bool
  /-- the key port has answered: success or failure -/
  done : Option Bool
  deriving DecidableEq, Repr

/-- A key-port request that waits for KP_ACK (04 R131). -/
structure KpReq where
  op : BitVec 2
  idx : BitVec 5
  wd : BitVec 16
  /-- Datum time of the request -/
  at_ : DWord
  deriving DecidableEq, Repr

/-- The security unit of tile 0. -/
structure Sec where
  secKeys : List (Nat × BitVec 256) := []
  tileKeys : List (Nat × BitVec 384) := []
  /-- measurements: parcel p under p, the benchmark record under 16; byte i in bits 8i+7:8i -/
  meas : Sparse (BitVec 384) := []
  sealing : Option Seal := none
  kp : Option KpReq := none
  /-- unlock in force -/
  active : Bool := false
  parcel : BitVec 4 := 0
  scope : BitVec 3 := 0
  until_ : DWord := 0
  phase : BitVec 3 := 0
  res : BitVec 4 := 0
  fails : BitVec 8 := 0
  /-- end of the WAIT countdown -/
  waitTo : Option DWord := none
  /-- challenge requested and not yet placed -/
  chalReq : Bool := false
  /-- the last challenge has been consumed or has expired, and none has been requested since (R165, R168) -/
  spent : Bool := false
  /-- outstanding challenge and its time of issue -/
  chal : Option (BitVec 256 × DWord) := none
  /-- the challenge that the submitted message consumed -/
  used : Option (BitVec 256 × DWord) := none
  /-- unlock message words -/
  msg : Sparse Word := []
  /-- watchdog window starts by parcel -/
  wdStart : Sparse DWord := []
  /-- watchdogs that hold (09 R360): parcel -/
  wdRun : List Nat := []
  deriving DecidableEq, Repr

/-- A host request (15 R517). -/
structure HostReq where
  rid : Nat
  tag : BitVec 5
  wr : Bool
  addr : Word
  size : Nat
  data : DWord
  deriving DecidableEq, Repr

/-- A response waiting to be taken. -/
structure HostResp where
  req : HostReq
  rd : DWord
  err : Bool
  /-- Datum time at which it was raised -/
  at_ : DWord
  deriving DecidableEq, Repr

/-- Per host requester and the debugger (key 32): CFG_HP_STAT and the open message. -/
structure HpStat where
  slow : Bool := false
  fullref : Bool := false
  open_ : Option (Nat × List Word) := none
  /-- held _LO writes: register key and value (00 R18) -/
  lo : List (Nat × Word) := []
  deriving DecidableEq, Repr

/-- A request whose response is still to be raised. -/
structure HostOut where
  req : HostReq
  /-- tag of the flits that carried it -/
  tag : BitVec 16
  /-- an earlier part of it was turned away -/
  bad : Bool := false
  /-- answered with a datum, or with an error: it waits for the earlier requests to its tile (15 R521) -/
  done : Option (Nat × Bool) := none
  deriving DecidableEq, Repr

/-- The host port. -/
structure HostPort where
  /-- requests without a response yet, in issue order, one entry for each answer still to come -/
  out : List HostOut := []
  /-- responses, oldest first -/
  resp : List HostResp := []
  /-- requests held without acknowledge, oldest first -/
  held : List HostReq := []
  stat : Sparse HpStat := []
  deriving DecidableEq, Repr

/-- A debug access (18 R603). -/
structure DbgAcc where
  addr : Word
  wr : Bool
  consume : Bool
  data : Word
  deriving DecidableEq, Repr

/-- The scan port on tile 0. -/
structure Dbg where
  ir : BitVec 5 := 1
  /-- access in flight -/
  acc : Option DbgAcc := none
  /-- a read or write carried to another tile waits for its answer under this tag -/
  tag : Option (BitVec 16) := none
  /-- the access in flight is answered: data, or a refusal -/
  ans : Option (Option Word) := none
  /-- answers of other tiles still to come under `tag` -/
  left : Nat := 0
  /-- the access in flight found a full mailbox (15 R535) -/
  full : Bool := false
  /-- its result is discarded at completion (18 R609) -/
  discard : Bool := false
  data : Word := 0
  addr : Word := 0
  status : BitVec 2 := 3
  overrun : Bool := false
  refused : Bool := false
  /-- last value that Capture-DR of DACC loaded -/
  dacc : BitVec 68 := 0
  /-- the identification register that IDCODE selects (18 R602); 0 while another instruction is selected -/
  idr : Word := 0x1160854F
  deriving DecidableEq, Repr

/-! ## The whole -/

/-- What a command returned: the datum of a register read, and whether it was refused. The model's own. -/
structure Result where
  data : DWord := 0
  refused : Bool := false
  deriving DecidableEq, Repr

/-- The state. Keys of the numbered tables are cluster-wide: context t*256+c, source t*1024+n, port t*8+p, pair t*8+k,
flow (t*8+p)*8+f, queue (t*8+p)*8+q, sequencer t*32+n, timer t*16+n, PWM t*8+p, mailbox t*32+m, lock t*64+n, engine t*16+e,
counter t*144+i, sampler t*16+e, link t*4+k, writable microword (t*4+q)*2048+i, decode entry (t*4+q)*32+i,
code block t*16384+b, mirror block t*32768+b; a register's key is its cluster address. -/
structure State where
  /-- the block's queue of waiting commands, first in first out -/
  pending : List Instr := []
  /-- strap: number of tiles (01 R47). DESIGN CHOICE: notes/assumptions/1.md -/
  nTiles : Nat := 2
  /-- the start sequence has begun since reset -/
  begun : Bool := false
  /-- KP_TEST asserted (04 R135) -/
  kpTest : Bool := false
  /-- the model's counter behind free values: notes/assumptions/9.md -/
  fresh : Nat := 0
  /-- the model's record of the last read: notes/assumptions/10.md -/
  result : Result := {}
  /-- live registers, by address; an unlisted one reads its reset value -/
  regs : Sparse Word := []
  /-- staged copies of staged registers (03 R121) -/
  staged : Sparse Word := []
  tiles : Sparse Tile := []
  ctxs : Sparse Ctx := []
  engs : Sparse Engine := []
  srcs : Sparse Src := []
  ports : Sparse Port := []
  flows : Sparse Flow := []
  txqs : Sparse TxQ := []
  pairs : Sparse Pair := []
  seqs : Sparse Seq := []
  tmrs : Sparse Tmr := []
  pwms : Sparse Pwm := []
  mbxs : Sparse Mbx := []
  locks : Sparse Word := []
  pmcs : Sparse Pmc := []
  smps : Sparse Smp := []
  links : Sparse Link := []
  /-- buffer memory by cluster address -/
  mem : List Host.Cell := []
  /-- code memory by cluster address -/
  code : List Host.Cell := []
  /-- the flash by its address: notes/assumptions/8.md -/
  flash : List Host.Cell := []
  codeTag : Sparse CodeTag := []
  wstore : Sparse UWord := []
  dec : Sparse Dec := []
  mirror : Sparse Mirror := []
  /-- storage blocks whose CRC does not hold: scrub position keys (14 R495), tile * 2^20 + position -/
  badBlk : List Nat := []
  hdr : Option Hdr := none
  fns : Sparse Fn := []
  nvm : Nvm := {}
  sec : Sec := {}
  hp : HostPort := {}
  dbg : Dbg := {}
  deriving DecidableEq, Repr

/-- The block right after reset (00 R13, 19 R647): nothing listed anywhere, every field at the value its own default names. -/
def State.reset : State := {}

/-- Why a command stops. No command of this block does: the spec gives every command an effect in every state (a refusal of
00 R22 is an effect), so no meaning raises this. It would be safe. -/
inductive Fault where
  /-- raised by nothing; safe -/
  | none
  deriving DecidableEq, Repr

/-- Why a command has no meaning. -/
inductive Refusal where
  /-- a command not modelled yet: raised by `exec`'s own arms only; safe -/
  | notModelled (mnemonic : String)
  deriving DecidableEq, Repr

end Sys2Proof.Machine
end

