-- ==== Sys2Proof/Machine/Access.lean ====
section
/-! DEFINITION. Reading and writing one entry of each table of the state, and registers by their address. -/
namespace Sys2Proof.Machine

/-- Entry `k` of `tiles`. -/
def getTile (s : State) (k : Nat) : Tile := sget {} s.tiles k
/-- `s` with entry `k` of `tiles` replaced. -/
def setTile (s : State) (k : Nat) (x : Tile) : State := { s with tiles := sput {} s.tiles k x }
/-- `s` with entry `k` of `tiles` changed. -/
def modTile (s : State) (k : Nat) (g : Tile → Tile) : State := setTile s k (g (getTile s k))

/-- Entry `k` of `ctxs`. -/
def getCtx (s : State) (k : Nat) : Ctx := sget {} s.ctxs k
/-- `s` with entry `k` of `ctxs` replaced. -/
def setCtx (s : State) (k : Nat) (x : Ctx) : State := { s with ctxs := sput {} s.ctxs k x }
/-- `s` with entry `k` of `ctxs` changed. -/
def modCtx (s : State) (k : Nat) (g : Ctx → Ctx) : State := setCtx s k (g (getCtx s k))

/-- Entry `k` of `engs`. -/
def getEng (s : State) (k : Nat) : Engine := sget {} s.engs k
/-- `s` with entry `k` of `engs` replaced. -/
def setEng (s : State) (k : Nat) (x : Engine) : State := { s with engs := sput {} s.engs k x }
/-- `s` with entry `k` of `engs` changed. -/
def modEng (s : State) (k : Nat) (g : Engine → Engine) : State := setEng s k (g (getEng s k))

/-- Entry `k` of `srcs`. -/
def getSrc (s : State) (k : Nat) : Src := sget {} s.srcs k
/-- `s` with entry `k` of `srcs` replaced. -/
def setSrc (s : State) (k : Nat) (x : Src) : State := { s with srcs := sput {} s.srcs k x }
/-- `s` with entry `k` of `srcs` changed. -/
def modSrc (s : State) (k : Nat) (g : Src → Src) : State := setSrc s k (g (getSrc s k))

/-- Entry `k` of `ports`. -/
def getPort (s : State) (k : Nat) : Port := sget {} s.ports k
/-- `s` with entry `k` of `ports` replaced. -/
def setPort (s : State) (k : Nat) (x : Port) : State := { s with ports := sput {} s.ports k x }
/-- `s` with entry `k` of `ports` changed. -/
def modPort (s : State) (k : Nat) (g : Port → Port) : State := setPort s k (g (getPort s k))

/-- Entry `k` of `flows`. -/
def getFlow (s : State) (k : Nat) : Flow := sget {} s.flows k
/-- `s` with entry `k` of `flows` replaced. -/
def setFlow (s : State) (k : Nat) (x : Flow) : State := { s with flows := sput {} s.flows k x }
/-- `s` with entry `k` of `flows` changed. -/
def modFlow (s : State) (k : Nat) (g : Flow → Flow) : State := setFlow s k (g (getFlow s k))

/-- Entry `k` of `txqs`. -/
def getTxQ (s : State) (k : Nat) : TxQ := sget {} s.txqs k
/-- `s` with entry `k` of `txqs` replaced. -/
def setTxQ (s : State) (k : Nat) (x : TxQ) : State := { s with txqs := sput {} s.txqs k x }
/-- `s` with entry `k` of `txqs` changed. -/
def modTxQ (s : State) (k : Nat) (g : TxQ → TxQ) : State := setTxQ s k (g (getTxQ s k))

/-- Entry `k` of `pairs`. -/
def getPair (s : State) (k : Nat) : Pair := sget {} s.pairs k
/-- `s` with entry `k` of `pairs` replaced. -/
def setPair (s : State) (k : Nat) (x : Pair) : State := { s with pairs := sput {} s.pairs k x }
/-- `s` with entry `k` of `pairs` changed. -/
def modPair (s : State) (k : Nat) (g : Pair → Pair) : State := setPair s k (g (getPair s k))

/-- Entry `k` of `seqs`. -/
def getSeq (s : State) (k : Nat) : Seq := sget {} s.seqs k
/-- `s` with entry `k` of `seqs` replaced. -/
def setSeq (s : State) (k : Nat) (x : Seq) : State := { s with seqs := sput {} s.seqs k x }
/-- `s` with entry `k` of `seqs` changed. -/
def modSeq (s : State) (k : Nat) (g : Seq → Seq) : State := setSeq s k (g (getSeq s k))

/-- Entry `k` of `tmrs`. -/
def getTmr (s : State) (k : Nat) : Tmr := sget {} s.tmrs k
/-- `s` with entry `k` of `tmrs` replaced. -/
def setTmr (s : State) (k : Nat) (x : Tmr) : State := { s with tmrs := sput {} s.tmrs k x }
/-- `s` with entry `k` of `tmrs` changed. -/
def modTmr (s : State) (k : Nat) (g : Tmr → Tmr) : State := setTmr s k (g (getTmr s k))

/-- Entry `k` of `pwms`. -/
def getPwm (s : State) (k : Nat) : Pwm := sget {} s.pwms k
/-- `s` with entry `k` of `pwms` replaced. -/
def setPwm (s : State) (k : Nat) (x : Pwm) : State := { s with pwms := sput {} s.pwms k x }
/-- `s` with entry `k` of `pwms` changed. -/
def modPwm (s : State) (k : Nat) (g : Pwm → Pwm) : State := setPwm s k (g (getPwm s k))

/-- Entry `k` of `mbxs`. -/
def getMbx (s : State) (k : Nat) : Mbx := sget {} s.mbxs k
/-- `s` with entry `k` of `mbxs` replaced. -/
def setMbx (s : State) (k : Nat) (x : Mbx) : State := { s with mbxs := sput {} s.mbxs k x }
/-- `s` with entry `k` of `mbxs` changed. -/
def modMbx (s : State) (k : Nat) (g : Mbx → Mbx) : State := setMbx s k (g (getMbx s k))

/-- Entry `k` of `pmcs`. -/
def getPmc (s : State) (k : Nat) : Pmc := sget {} s.pmcs k
/-- `s` with entry `k` of `pmcs` replaced. -/
def setPmc (s : State) (k : Nat) (x : Pmc) : State := { s with pmcs := sput {} s.pmcs k x }
/-- `s` with entry `k` of `pmcs` changed. -/
def modPmc (s : State) (k : Nat) (g : Pmc → Pmc) : State := setPmc s k (g (getPmc s k))

/-- Entry `k` of `smps`. -/
def getSmp (s : State) (k : Nat) : Smp := sget {} s.smps k
/-- `s` with entry `k` of `smps` replaced. -/
def setSmp (s : State) (k : Nat) (x : Smp) : State := { s with smps := sput {} s.smps k x }
/-- `s` with entry `k` of `smps` changed. -/
def modSmp (s : State) (k : Nat) (g : Smp → Smp) : State := setSmp s k (g (getSmp s k))

/-- Entry `k` of `links`. -/
def getLink (s : State) (k : Nat) : Link := sget {} s.links k
/-- `s` with entry `k` of `links` replaced. -/
def setLink (s : State) (k : Nat) (x : Link) : State := { s with links := sput {} s.links k x }
/-- `s` with entry `k` of `links` changed. -/
def modLink (s : State) (k : Nat) (g : Link → Link) : State := setLink s k (g (getLink s k))

/-- Entry `k` of `codeTag`. -/
def getCodeTag (s : State) (k : Nat) : CodeTag := sget {} s.codeTag k
/-- `s` with entry `k` of `codeTag` replaced. -/
def setCodeTag (s : State) (k : Nat) (x : CodeTag) : State := { s with codeTag := sput {} s.codeTag k x }
/-- `s` with entry `k` of `codeTag` changed. -/
def modCodeTag (s : State) (k : Nat) (g : CodeTag → CodeTag) : State := setCodeTag s k (g (getCodeTag s k))

/-- Entry `k` of `wstore`. -/
def getUWord (s : State) (k : Nat) : UWord := sget {} s.wstore k
/-- `s` with entry `k` of `wstore` replaced. -/
def setUWord (s : State) (k : Nat) (x : UWord) : State := { s with wstore := sput {} s.wstore k x }
/-- `s` with entry `k` of `wstore` changed. -/
def modUWord (s : State) (k : Nat) (g : UWord → UWord) : State := setUWord s k (g (getUWord s k))

/-- Entry `k` of `dec`. -/
def getDec (s : State) (k : Nat) : Dec := sget {} s.dec k
/-- `s` with entry `k` of `dec` replaced. -/
def setDec (s : State) (k : Nat) (x : Dec) : State := { s with dec := sput {} s.dec k x }
/-- `s` with entry `k` of `dec` changed. -/
def modDec (s : State) (k : Nat) (g : Dec → Dec) : State := setDec s k (g (getDec s k))

/-- Entry `k` of `mirror`. -/
def getMirror (s : State) (k : Nat) : Mirror := sget {} s.mirror k
/-- `s` with entry `k` of `mirror` replaced. -/
def setMirror (s : State) (k : Nat) (x : Mirror) : State := { s with mirror := sput {} s.mirror k x }
/-- `s` with entry `k` of `mirror` changed. -/
def modMirror (s : State) (k : Nat) (g : Mirror → Mirror) : State := setMirror s k (g (getMirror s k))

/-- Entry `k` of `fns`. -/
def getFn (s : State) (k : Nat) : Fn := sget {} s.fns k
/-- `s` with entry `k` of `fns` replaced. -/
def setFn (s : State) (k : Nat) (x : Fn) : State := { s with fns := sput {} s.fns k x }
/-- `s` with entry `k` of `fns` changed. -/
def modFn (s : State) (k : Nat) (g : Fn → Fn) : State := setFn s k (g (getFn s k))

/-- The cluster address of offset `off` on tile `t` (00 R9, 01 R38). -/
def ta (t off : Nat) : Nat := t * 0x1000000 + off

/-- Is `off` the `k`-th word of one of `n` register blocks of `stride` bytes from `base`? -/
def inBlocks (off base stride n k : Nat) : Bool :=
  decide (base ≤ off) && decide (off < base + stride * n) && decide ((off - base) % stride = k)

/-- The reset value of the register at a cluster address (the Reset columns; every one not named here is 0). -/
def regReset (a : Nat) : Word :=
  let t := a / 0x1000000
  let off := a % 0x1000000
  if off = 0x55F00C then 0x0A000000
  else if off = 0x55F014 then (if t = 0 then 0x80 else 0)
  else if 0x55F030 ≤ off && off < 0x55F040 then 0x03FF0000
  else if off = 0x500018 then 0x1000
  else if 0x516000 ≤ off && off < 0x516400 then 0x80000000
  else if inBlocks off 0x530000 0x800 8 0x30 then 0x3FFFFFFF
  else if inBlocks off 0x530000 0x800 8 0x34 then 0xFFFFF
  else if 0x530000 ≤ off && off < 0x534000 && 0x100 ≤ off % 0x800 && off % 0x800 < 0x200 && off % 0x20 = 0 then 0x3FF
  else if inBlocks off 0x502000 0x80 8 0xC then 0x3FFFFFFF
  else if inBlocks off 0x520000 0x80 32 4 then 0x3FFFFFFF
  else if inBlocks off 0x540000 0x100 32 0xC then 0x3FFFFFFF
  else if inBlocks off 0x540000 0x100 32 0x10 then 0x3FF
  else if inBlocks off 0x550000 0x40 16 4 then 0x3FFFFFFF
  else if inBlocks off 0x560000 0x40 8 8 then 0x3FFFFFFF
  else if inBlocks off 0x560000 0x40 8 0xC then 0xFFFFF
  else if inBlocks off 0x5A0000 0x20 144 4 then 0x3FF
  else if inBlocks off 0x5A0000 0x20 144 8 then 0x07FFFF00
  else if inBlocks off 0x5A3000 0x10 16 8 then 0x3FF
  else if 0x5C0300 ≤ off && off < 0x5C0340 then BitVec.ofNat 32 (2 ^ ((off - 0x5C0300) / 4))
  else 0

/-- The live register at address `a`. -/
def rg (s : State) (a : Nat) : Word := sget (regReset a) s.regs a
/-- `s` with the live register at `a` set. -/
def setRg (s : State) (a : Nat) (v : Word) : State := { s with regs := sput (regReset a) s.regs a v }
/-- `s` with the live register at `a` changed. -/
def modRg (s : State) (a : Nat) (g : Word → Word) : State := setRg s a (g (rg s a))
/-- The staged copy of the register at `a` (03 R121). -/
def sg (s : State) (a : Nat) : Word := sget (regReset a) s.staged a
/-- `s` with the staged copy of the register at `a` set. -/
def setSg (s : State) (a : Nat) (v : Word) : State := { s with staged := sput (regReset a) s.staged a v }

/-- The holder's identity of a lock, 0 while free (15 R541). -/
def getLock (s : State) (k : Nat) : Word := sget 0 s.locks k
/-- `s` with a lock's holder set. -/
def setLock (s : State) (k : Nat) (v : Word) : State := { s with locks := sput 0 s.locks k v }

/-- A free value, and the state whose counter it has advanced (notes/assumptions/9.md). -/
def freshOf (s : State) : Nat × State := (s.fresh, { s with fresh := s.fresh + 1 })

end Sys2Proof.Machine
end

