-- ==== Sys2Proof/Machine/Ops.lean ====
section
/-! DEFINITION. Operations shared by all units: domains, ownership, memory, event messages (10), the refusal count (04 R147),
performance events (18), fault records (14). -/
namespace Sys2Proof.Machine

/-! ## Domains (19) -/

/-- Domain codes (R633). -/
def domSEC : Nat := 1
def domQ (q : Nat) : Nat := 2 + q
def domPORT : Nat := 6
def domPIN : Nat := 7
def domBUF : Nat := 8
def domLINK : Nat := 9

/-- Domain `d` of tile `t` is powered, acknowledged and not stale (01 R42, 19 R637, R641). -/
def powered (s : State) (t d : Nat) : Bool :=
  let x := getTile s t
  bit x.req d && bit x.ack d && !bit x.stale d

/-- Datum nanoseconds of tile `t` (02 R60). -/
def now (s : State) (t : Nat) : DWord := (getTile s t).ns

/-- Datum bits 31:0. -/
def now32 (s : State) (t : Nat) : Word := (now s t).setWidth 32

/-- The increment of one DREF edge in units of 2^-40 ns (02 R58, R67): TMR_DINC times (1 + ADJ x 2^-10 x 10^-9), rounded down
(notes/assumptions/11.md). -/
def increment (s : State) (t : Nat) : Int :=
  let inc : Int := (rg s (ta t 0x55F00C)).toNat * 2 ^ 16
  inc + (inc * (rg s (ta t 0x55F010)).toInt) / (1024 * 1000000000)

/-- The Datum that a stamp of tile `t` takes, in units of 2^-16 ns (02 R60): interpolated between the last edge and the next, within
0.5 ns. Which value is free: notes/assumptions/34.md. -/
def eventTime (s : State) (t : Nat) : State × Nat :=
  let (k, s) := freshOf s
  let x := getTile s t
  let span := (increment s t).toNat / 2 ^ 24 + 65536
  (s, (x.ns.toNat * 65536 + x.frac.toNat / 2 ^ 24 + 2 ^ 80 - 32768 + (Config.freeWord k).toNat % (span + 1)) % 2 ^ 80)

/-- The nanoseconds of a stamp. -/
def eventNs (e : Nat) : DWord := BitVec.ofNat 64 (e / 65536)

/-- Every tile of the cluster. -/
def tilesOf (s : State) : List Nat := List.range s.nTiles

/-! ## Ownership (00 R20, 01 R35, R37; 04 R148) -/

/-- Descriptor of function `f`. -/
def fnDesc (s : State) (f : Nat) : Option FnDesc := s.hdr.bind fun h => h.fns[f]?

/-- NFUNC of the accepted header. -/
def nFn (s : State) : Nat := (s.hdr.map fun h => h.fns.length).getD 0

/-- The parcel of function `f`; 0 where there is none. -/
def fnParcel (s : State) (f : Nat) : Nat := ((fnDesc s f).map fun d => d.parcel).getD 0

/-- The function whose bit map `sel` names resource `k`. -/
def binder (s : State) (sel : FnDesc → Nat) (k : Nat) : Option Nat :=
  s.hdr.bind fun h => h.fns.findIdx? fun d => (sel d).testBit k

def fnOfCtx (s : State) (c : Nat) : Option Nat := binder s FnDesc.ctxs c
def fnOfPort (s : State) (p : Nat) : Option Nat := binder s FnDesc.ports p
def fnOfPair (s : State) (k : Nat) : Option Nat := binder s FnDesc.pairs k
def fnOfSeq (s : State) (n : Nat) : Option Nat := binder s FnDesc.psqs n
def fnOfTmr (s : State) (n : Nat) : Option Nat := binder s FnDesc.tmrs n
def fnOfPwm (s : State) (p : Nat) : Option Nat := binder s FnDesc.pwms p
def fnOfMbx (s : State) (m : Nat) : Option Nat := binder s FnDesc.mbxs m

/-- The parcel that owns what function `f?` binds (R20). -/
def ownerOf (s : State) (f? : Option Nat) : Nat := (f?.map (fnParcel s)).getD 0

/-- The parcel of context `c` (04 R128). -/
def ctxParcel (s : State) (c : Nat) : Nat := ownerOf s (fnOfCtx s c)

/-- Parcel-table entry of parcel `p`. -/
def parcelEntry (s : State) (p : Nat) : Option ParcelEntry :=
  s.hdr.bind fun h => (h.parcels.find? fun x => x.1 == p).map Prod.snd

/-- CEILING of parcel `p`. -/
def ceiling (s : State) (p : Nat) : BitVec 2 := ((parcelEntry s p).map fun e => e.ceiling).getD 0

/-- Parcel `p` is quiet (04 R169). -/
def quiet (s : State) (p : Nat) : Bool := ((parcelEntry s p).map fun e => e.quiet).getD false

/-- Is requester `rid` granted to parcel `p` (04 R129)? -/
def granted (s : State) (rid p : Nat) : Bool := ((parcelEntry s p).map fun e => bit e.hostGrant rid).getD false

/-- The parcels that requester `rid` is granted to, in rising order. -/
def grantsOf (s : State) (rid : Nat) : List Nat := (List.range 16).filter (granted s rid)

/-- Tag and host-window bit of granule `g` of tile `t` (04 R148). -/
def granTag (s : State) (t g : Nat) : Nat × Bool :=
  let regs := ((s.hdr.map fun h => h.fns).getD []).flatMap fun d => d.regions.map fun r => (d.parcel, r)
  let hit := regs.filter fun x => x.2.tile == t && decide (x.2.first ≤ g) && decide (g < x.2.first + x.2.count)
  ((hit.head?.map Prod.fst).getD 0, hit.any fun x => x.2.host)

/-- Is granule `g` of tile `t` in a region of function `f`? -/
def granOfFn (s : State) (f t g : Nat) : Bool :=
  ((fnDesc s f).map fun d => d.regions.any fun r =>
    r.tile == t && decide (r.first ≤ g) && decide (g < r.first + r.count)).getD false

/-- State of function `f`. -/
def fnState (s : State) (f : Nat) : FnState := (getFn s f).st

/-- Function `f?` exists and is RUNNING. -/
def isRunning (s : State) (f? : Option Nat) : Bool := (f?.map fun f => decide (fnState s f = .running)).getD false

/-- Function `f` is RUNNING or DRAINING. -/
def isUp (s : State) (f : Nat) : Bool := decide (fnState s f = .running) || decide (fnState s f = .draining)

/-! ## Memories -/

/-- `n` bytes of a memory from address `a`; an unlisted byte reads as `d`. -/
def readBytes (d : Byte) (m : List Host.Cell) (a n : Nat) : List Byte := (List.range n).map fun i => sget d m (a + i)

/-- A memory with bytes written from address `a`. -/
def writeBytes (d : Byte) (m : List Host.Cell) (a : Nat) : List Byte → List Host.Cell
  | [] => m
  | b :: bs => writeBytes d (sput d m a b) (a + 1) bs

/-- A memory without the `n` bytes from `a`, which then read as unlisted ones. -/
def eraseBytes (m : List Host.Cell) (a n : Nat) : List Host.Cell := m.filter fun c => c.1 < a || a + n ≤ c.1

/-- Buffer-memory bytes at a cluster address. -/
def memBytes (s : State) (a n : Nat) : List Byte := readBytes 0 s.mem a n
/-- Buffer memory read, little-endian (00 R10). -/
def memRead (s : State) (a n : Nat) : Nat := leVal (memBytes s a n)
/-- Code memory read. -/
def codeRead (s : State) (a n : Nat) : Nat := leVal (readBytes 0 s.code a n)
/-- Flash read. -/
def flashBytes (s : State) (a n : Nat) : List Byte := readBytes 0xFF s.flash a n
/-- Buffer memory written, little-endian. -/
def memWriteBytes (s : State) (a : Nat) (bs : List Byte) : State := { s with mem := writeBytes 0 s.mem a bs }
/-- A store of `n` bytes. -/
def memWrite (s : State) (a n v : Nat) : State := memWriteBytes s a (leBytes n v)

/-- The tile offset block number (64 bytes) of a buffer-memory address. -/
def blockOf (a : Nat) : Nat := a % 0x1000000 / 64

/-- Is the block that holds address `a` in its tile's lost-block table (14 R500)? -/
def isLost (s : State) (a : Nat) : Bool :=
  (getTile s (a / 0x1000000)).lost.any fun e => (e.2.map fun x => x.1 == blockOf a).getD false

/-- `s` with block `b` out of tile `t`'s lost-block table (14 R501). -/
def unlose (s : State) (t b : Nat) : State :=
  modTile s t fun x => { x with lost := x.lost.filter fun e => !((e.2.map fun y => y.1 == b).getD false) }

/-! ## Event messages (10 R370) -/

/-- Does source `n` exist on tile `t` (10 R366, R367)? -/
def srcExists (t n : Nat) : Bool :=
  decide (n ≤ 0x37F) ||
  (t == 0 && (decide (0x380 ≤ n ∧ n ≤ 0x3C0) || decide (0x3E0 ≤ n ∧ n ≤ 0x3EF))) ||
  n == 0x3C1 || n == 0x3C2 || decide (0x3C4 ≤ n ∧ n ≤ 0x3C6) || decide (0x3C8 ≤ n ∧ n ≤ 0x3CC) ||
  decide (0x3D0 ≤ n ∧ n ≤ 0x3DF)

/-- An edge message on a source's bits. -/
def Src.onEdge (x : Src) : Src := { x with miss := x.miss || x.pend || x.act, pend := true }
/-- A level assert. -/
def Src.onAssert (x : Src) : Src := { x with lvl := true, pend := x.pend || !x.act }
/-- A level withdraw. -/
def Src.onWithdraw (x : Src) : Src := { x with lvl := false, pend := x.pend && x.act }
/-- Delivery to a context (its local number) or to a host. -/
def Src.onDeliver (x : Src) (holder : Option Nat) : Src := { x with act := true, pend := false, holder := holder }
/-- Completion: re-sampled by the level. -/
def Src.onComplete (x : Src) : Src := { x with act := false, pend := x.pend || x.lvl, holder := none }

/-- Requests for BUF with SEC and LINK of tile `t` (19 R639); nothing while BUF is powered or a command is in progress. -/
def requestBuf (s : State) (t : Nat) : State :=
  let x := getTile s t
  if bit x.req domBUF || x.pcmd.isSome then s
  else setTile s t { x with req := x.req ||| 0x302#10, pcmd := some { up := true, dom := domBUF } }

/-- EVC_SCFGn.WAKE of source `n`. -/
def srcWake (s : State) (t n : Nat) : Bool := bit (rg s (ta t (0x511000 + n * 16))) 0

/-- An edge message for source `n` of tile `t`: applied by the controller, or caught by the AON latches while BUF is not
powered (R384). 0x3FF and sources that do not exist raise nothing. -/
def raiseEdge (s : State) (t n : Nat) : State :=
  if !srcExists t n then s
  else if powered s t domBUF then modSrc s (t * 1024 + n) Src.onEdge
  else
    let s := modSrc s (t * 1024 + n) fun x => { x with edge := true }
    if srcWake s t n then requestBuf s t else s

/-- A level message for source `n`: assert or withdraw. -/
def sendLevel (s : State) (t n : Nat) (on : Bool) : State :=
  if !srcExists t n then s
  else if powered s t domBUF then
    modSrc s (t * 1024 + n) fun x => if on then x.onAssert else x.onWithdraw
  else
    let s := modSrc s (t * 1024 + n) fun x => { x with lvlc := on }
    if on && srcWake s t n then requestBuf s t else s

/-- A unit's level condition is `on`, its field names source `n` and the unit stands asserted at `at?`: a message where that changes it, and
where the unit then stands asserted (R370). -/
def levelMsg (s : State) (t n : Nat) (on : Bool) (at? : Option Nat) : State × Option Nat :=
  if on then (if at? = some n then s else sendLevel s t n true, some n)
  else (if at? = some n then sendLevel s t n false else s, none)

/-! ## Refusals (00 R22, 04 R147) -/

/-- SEC_DENYp of tile `t` counts one refused access; it stops at 0xFFFF_FFFF. -/
def countDeny (s : State) (t p : Nat) : State :=
  modRg s (ta t (0x5C0380 + p * 4)) fun w => if w = 0xFFFFFFFF then w else w + 1

/-! ## Performance events (18 R624, R628; 04 R159, R160) -/

/-- An occurrence of a performance event. -/
structure Occ where
  code : Nat
  eng : Option Nat := none
  /-- local context -/
  ctx : Option Nat := none
  parcel : Nat := 0
  priv : Option Nat := none
  pc : BitVec 20 := 0
  latency : Nat := 0

/-- SEC_PMC_GRANT of parcel `p` as tile `t` holds it (04 R161): tile 0's register, or the copy that its messages brought. -/
def grantOf (s : State) (t p : Nat) : Word := rg s (ta t (0x5C0300 + p * 4))

/-- Is any context of parcel `q` on tile `t` HALTED (18 R622)? -/
def anyHalted (s : State) (t q : Nat) : Bool :=
  s.ctxs.any fun e => e.1 / 256 == t && decide (e.2.st = .halted) && ctxParcel s e.1 == q

/-- May parcel `q` count events of parcel `p` on tile `t` (04 R160)? -/
def mayCount (s : State) (t q p : Nat) : Bool := q == p || bit (grantOf s t p) q

/-- Counter `i` of tile `t`, owned by `q`, counts the occurrence (18 R624, R625). -/
def pmcHit (s : State) (t i q : Nat) (o : Occ) : Bool :=
  let cfg := rg s (ta t (0x5A0004 + i * 0x20))
  let filt := rg s (ta t (0x5A0008 + i * 0x20))
  bit cfg 31 && !(bit cfg 30 && anyHalted s t q) && fld cfg 10 8 == o.code &&
  (if i < 128 then decide (o.code < 0x40) && o.eng == some (i / 8) else true) &&
  mayCount s t q o.parcel && bit filt (8 + o.parcel) &&
  (!bit filt 31 || o.ctx == some (fld filt 0 8)) &&
  (match o.priv with | some k => bit filt (24 + k) | none => true)

/-- One counter adds `k`; a wrap sets OVF and raises SRC (18 R625). -/
def pmcAdd (s : State) (t i k : Nat) : State :=
  let x := getPmc s (t * 144 + i)
  let s' := setPmc s (t * 144 + i) { x with cnt := BitVec.ofNat 48 (x.cnt.toNat + k) }
  if x.cnt.toNat + k < 2 ^ 48 then s'
  else
    let s' := modRg s' (ta t (0x5A0004 + i * 0x20)) fun w => setBit w 29 true
    raiseEdge s' t (fld (rg s' (ta t (0x5A0004 + i * 0x20))) 0 10)

/-- The sampler of an engine takes one occurrence (18 R628, R629); with `n` 0 there was none. -/
def smpTake (s : State) (t e n : Nat) (o : Occ) : State :=
  let k := t * 16 + e
  let x := getSmp s k
  match x.owner with
  | none => s
  | some q =>
    let cfg := rg s (ta t (0x5A3004 + e * 16))
    if decide (n ≠ 0) && bit cfg 31 && !(bit cfg 30 && anyHalted s t q.toNat) && fld cfg 22 8 == o.code &&
        decide (1 ≤ o.code ∧ o.code ≤ 0x12) && mayCount s t q.toNat o.parcel then
      if x.occ < fld cfg 0 16 then setSmp s k { x with occ := x.occ + 1 }
      else
        let entry : Sample :=
          { w0 := fields [(24, 8, o.code), (2, 18, o.pc.toNat / 4)],
            w1 := fields [(16, 4, o.parcel), (0, 11, t * 256 + o.ctx.getD 0)],
            w2 := BitVec.ofNat 32 (min o.latency 0xFFFFFFFF), w3 := now32 s t }
        let full := x.count == 64
        let y := { x with ring := sput {} x.ring x.head.toNat entry, head := x.head + 1, occ := 0,
                          count := if full then 64 else x.count + 1, ovr := x.ovr || full }
        let s := setSmp s k y
        let wm := if fld cfg 16 6 = 0 then 64 else fld cfg 16 6
        if !full && y.count == wm then raiseEdge s t (fld (rg s (ta t (0x5A3008 + e * 16))) 0 10) else s
    else s

/-- Every counter and sampler of tile `t` that the occurrence concerns takes it, `k` times over. -/
def countEvent (s : State) (t : Nat) (o : Occ) (k : Nat := 1) : State :=
  let s := s.pmcs.foldl (fun s e =>
    match e.2.owner with
    | some q => if e.1 / 144 == t && pmcHit s t (e.1 % 144) q.toNat o then pmcAdd s t (e.1 % 144) k else s
    | none => s) s
  match o.eng with
  | some e => smpTake s t e k o
  | none => s

/-- A tile event of parcel `p`. -/
def countTile (s : State) (t code p : Nat) (k : Nat := 1) : State := countEvent s t { code := code, parcel := p } k

/-- The context record of the loaded schedule of the function that binds context `c` (03 R105, 05 R196). -/
def ctxRec (s : State) (c : Nat) : Option CtxRec :=
  (fnOfCtx s c).bind fun f => (getFn s f).sched.bind fun sc => sc.ctxs.find? fun r => r.ctx == c

/-- The engine (0 to 15) of context `c`. -/
def engOf (s : State) (c : Nat) : Nat := ((ctxRec s c).map fun r => r.eng).getD 0

/-- Context `c` is hard-class. -/
def isHard (s : State) (c : Nat) : Bool := ((ctxRec s c).map fun r => r.cls == 1).getD false

/-- An engine event caused by context `c`. -/
def countCtx (s : State) (c code : Nat) (k : Nat := 1) (latency : Nat := 0) : State :=
  let x := getCtx s c
  countEvent s (c / 256) { code := code, eng := some (engOf s c), ctx := some (c % 256), parcel := ctxParcel s c,
                           priv := some x.priv.toNat, pc := x.pc, latency := latency } k

/-! ## Fault records (14 R507 to R512) -/

/-- A fault record to write. -/
structure FaultRec where
  outcome : Nat
  cls : Nat
  parcel : Nat := 0
  ctx : Nat := 0
  unit : Nat
  inst : Nat := 0
  detail : Nat := 0
  addr : Nat := 0
  /-- the class's FAULT_N column says "yes" -/
  ack : Bool := false

/-- Words W0 to W3 of a record (R507), at Datum `ns`. -/
def FaultRec.w0 (r : FaultRec) : Word := fields [(31, 1, 1), (28, 3, r.outcome), (20, 8, r.cls), (16, 4, r.parcel), (0, 11, r.ctx)]
def FaultRec.w1 (r : FaultRec) : Word := fields [(24, 8, r.unit), (16, 8, r.inst), (0, 8, r.detail)]

/-- FLT_STAT.UNACK ← 1 on tile `t`. -/
def setUnack (s : State) (t : Nat) : State := modRg s (ta t 0x580000) fun w => setBit w 15 true

/-- The record goes into FLT_Pp, or advances its LOST, and raises the steward notice (R510). -/
def writeFltP (s : State) (t : Nat) (r : FaultRec) : State :=
  let b := ta t (0x580400 + r.parcel * 16)
  let s :=
    if bit (rg s b) 31 then modRg s (b + 4) fun w => bumpFld w 8 8 1
    else setRg (setRg (setRg (setRg s b r.w0) (b + 4) r.w1) (b + 8) (BitVec.ofNat 32 r.addr)) (b + 12) (now32 s t)
  raiseEdge s t (0x3D0 + r.parcel)

/-- Writes a fault record on tile `t` (R510 to R512): the log with the masking of R511, FLT_Pp, UNACK, and source 0x3C4. -/
def writeFault (s : State) (t : Nat) (r : FaultRec) : State :=
  let idx := rg s (ta t 0x580014)
  let i := fld idx 0 4
  let m : FaultRec := if r.parcel = 0 then r else { r with ctx := 0, detail := 0, addr := 0 }
  let b := ta t (0x580100 + i * 16)
  let s := setRg (setRg (setRg (setRg s b m.w0) (b + 4) m.w1) (b + 8) (BitVec.ofNat 32 m.addr)) (b + 12) (now32 s t)
  let s := setRg s (ta t 0x580014) (setFld (setFld idx 0 4 (i + 1)) 16 16 (fld idx 16 16 + 1))
  let s := writeFltP s t r
  let s := if r.ack then setUnack s t else s
  raiseEdge s t 0x3C4

/-- An entry held in two copies is used from the one whose CRC holds: the record of the masking (14 R493, R494, R509). -/
def copyMasked (s : State) (t unit inst parcel ctx : Nat) : State :=
  writeFault s t { outcome := 0, cls := 0x06, parcel, ctx, unit, inst }

/-- A counter field of FLT_CNT advances, stopping at its largest value (R516). -/
def fltCount (s : State) (t lo len : Nat) : State := modRg s (ta t 0x580010) fun w => bumpFld w lo len 1

/-! ## Engines that serve no more (09 R358, 14 R499) -/

/-- A quad of tile `t` counts as not acknowledged: not powered, or an engine of it locked or retired (09 R359). -/
def quadUp (s : State) (t q : Nat) : Bool :=
  powered s t (domQ q) && (span (q * 4) 4).all fun e => !(getEng s (t * 16 + e)).locked && !(getEng s (t * 16 + e)).retired

end Sys2Proof.Machine
end

