-- ==== Sys2Proof/Machine/Rights.lean ====
section
/-! DEFINITION. Stamps and identities (04 R130, 15 R522, R531), rights lines (00 "Who may read and change", R20 to R22) and
the access codes of plain registers (00 R14 to R19). -/
namespace Sys2Proof.Machine

/-- The stamp of an access (04 R130): issuer kind 0 context, 1 host, 2 debugger, 3 tile hardware; ID; parcel; privilege (3 for
an agent that is not a context); and whether a read performs its side effect (18 R607). -/
structure Acc where
  kind : Nat
  id : Nat
  parcel : Nat
  priv : Nat
  effect : Bool := true
  deriving DecidableEq, Repr

/-- The stamp of agent `ag` for a target that parcel `owner` owns (15 R522, 18 R604). -/
def stamp (s : State) (ag : Agent) (owner : Nat) : Acc :=
  match ag with
  | .ctx c => { kind := 0, id := c, parcel := ctxParcel s c, priv := (getCtx s c).priv.toNat }
  | .host r => { kind := 1, id := r, priv := 3,
                 parcel := if granted s r owner then owner else (grantsOf s r).head?.getD 0 }
  | .dbg consume => { kind := 2, id := 0, parcel := if s.sec.active then s.sec.parcel.toNat else 0, priv := 3, effect := consume }

/-- The identity of R531. -/
def Acc.ident (a : Acc) : Word := fields [(31, 1, 1), (29, 2, a.kind), (24, 4, a.parcel), (22, 2, a.priv), (0, 11, a.id)]

/-- One half of a rights line. `every`: the parcels named are every parcel, not the owner alone; `anyDbg`: "any debugger". -/
structure Rt where
  k : Bool := false
  s : Bool := false
  w : Bool := false
  h : Bool := false
  d : Bool := false
  every : Bool := false
  anyDbg : Bool := false
  /-- a host requester must be granted to some parcel (04 R129, 15 R523) -/
  anyGrant : Bool := false
  deriving DecidableEq, Repr

/-- S, W, H and D of the owning parcel. -/
def rSWHD : Rt := { s := true, w := true, h := true, d := true }
/-- S, H and D of the owning parcel. -/
def rSHD : Rt := { s := true, h := true, d := true }
/-- K; S, W, H and D of every parcel. -/
def rAll : Rt := { k := true, s := true, w := true, h := true, d := true, every := true }
/-- K; H and D of the owning parcel (parcel 0 for a tile-wide register, 04 R145). -/
def rKHD : Rt := { k := true, h := true, d := true }
/-- D of the owning parcel only. -/
def rD : Rt := { d := true }
/-- No agent. -/
def rNone : Rt := {}

/-- The unlock that tile `t` enforces: parcel and scope (04 R165). -/
def unlockAt (s : State) (t : Nat) : Option (Nat × BitVec 3) :=
  if t = 0 then (if s.sec.active then some (s.sec.parcel.toNat, s.sec.scope) else none)
  else ((getTile s t).unl).map fun x => (x.1.toNat, x.2)

/-- The debugger holds D of parcel `p` on tile `t` with scope bit `b`: 0 OBSERVE, 1 CONTROL, 2 FORCE (04 R163, R164). -/
def dbgHolds (s : State) (t p b : Nat) : Bool :=
  match unlockAt s t with | some (q, sc) => q == p && bit sc b | none => false

/-- The debugger holds an unlock on tile `t` with scope bit `b`, for whatever parcel. -/
def dbgAny (s : State) (t b : Nat) : Bool := match unlockAt s t with | some (_, sc) => bit sc b | none => false

/-- Does the access hold the right (R19 to R22; 04 R128, R129, R145, R146, R164; 15 R523)? `t` the tile that owns the target,
`own` the owning parcel. -/
def allows (s : State) (a : Acc) (t own : Nat) (r : Rt) (wr : Bool) : Bool :=
  match a.kind with
  | 0 => (r.k && a.parcel == 0 && a.priv == 0) ||
         ((r.every || a.parcel == own) && ((r.s && decide (a.priv ≤ 1)) || (r.w && decide (a.priv ≤ 2))))
  | 1 => r.h && (if r.every then (if r.anyGrant then !(grantsOf s a.id).isEmpty else !wr || s.hdr.isSome) else granted s a.id own)
  | 2 => let b := if wr || a.effect then 1 else 0
         r.anyDbg || (r.d && (if r.every then dbgAny s t b else dbgHolds s t own b))
  | _ => true

/-- The access holds S, W, H or D rights over parcel `p`, or K for parcel 0 (masked registers: 15 R529, 16 R571). -/
def holdsOver (s : State) (a : Acc) (t p : Nat) : Bool := allows s a t p { rSWHD with k := p == 0 } false

/-- A register's owner, function and rights, and the access codes of its bits. -/
structure Desc where
  own : Nat := 0
  /-- `some f?` for a register of a unit that a function may bind: bound by `f?` (01 R37) -/
  unit : Option (Option Nat) := none
  rd : Rt
  wr : Rt := rNone
  /-- staged (03 R121) -/
  staged : Bool := false
  rw : Word := 0
  w1c : Word := 0
  rc : Word := 0
  /-- the domain whose power it needs beside BUF's register bus (01 R40, R42) -/
  dom : Nat := 8

/-- What became of a register access: done; refused as in R22; or, of a write, an error report that is no refusal (11 R413,
15 R535). -/
inductive Done where
  | ok | refused | full
  deriving DecidableEq, Repr

/-- A mask of bits lo+len-1:lo. -/
def msk (lo len : Nat) : Word := BitVec.ofNat 32 ((2 ^ len - 1) <<< lo)

/-- The value a plain register shows: its staged copy where it has one (R121). -/
def plainVal (s : State) (d : Desc) (a : Nat) : Word := if d.staged then sg s a else rg s a

/-- A read of a plain register: an RC field is cleared of the bits returned as 1 (R14, R16), not by a debugger read without
the consume bit (R19). -/
def plainRead (s : State) (d : Desc) (acc : Acc) (a : Nat) : State × Word :=
  let v := plainVal s d a
  (if acc.effect && decide (v &&& d.rc ≠ 0) then setRg s a (v &&& ~~~d.rc) else s, v)

/-- A write of a plain register by its access codes (R12, R14). -/
def plainWrite (s : State) (d : Desc) (a : Nat) (v : Word) : State :=
  let old := plainVal s d a
  let new := ((old &&& ~~~d.rw) ||| (v &&& d.rw)) &&& ~~~(v &&& d.w1c)
  if d.staged then setSg s a new else setRg s a new

/-- A staged write is taken only while the function is QUIESCENT or UNLOADED (03 R121). -/
def stageOpen (s : State) (f? : Option Nat) : Bool :=
  match f? with
  | some f => decide (fnState s f = .quiescent) || decide (fnState s f = .unloaded)
  | none => false

/-- The _LO value that the agent holds for the register pair at `key` (00 R18), and its removal. -/
def heldLo (s : State) (acc : Acc) (key : Nat) : Option Word :=
  let l := if acc.kind = 0 then (getCtx s acc.id).lo else (sget {} s.hp.stat (if acc.kind = 1 then acc.id else 32)).lo
  (l.find? fun x => x.1 == key).map Prod.snd

/-- The agent's held _LO value for the pair at `key` set or dropped. -/
def setHeldLo (s : State) (acc : Acc) (key : Nat) (v? : Option Word) : State :=
  let upd := fun (l : List (Nat × Word)) =>
    let l := l.filter fun x => x.1 != key
    match v? with | some v => l ++ [(key, v)] | none => l
  if acc.kind = 0 then modCtx s acc.id fun x => { x with lo := upd x.lo }
  else
    let k := if acc.kind = 1 then acc.id else 32
    let h := sget {} s.hp.stat k
    { s with hp := { s.hp with stat := sput {} s.hp.stat k { h with lo := upd h.lo } } }

end Sys2Proof.Machine
end

