-- ==== Sys2Proof/Machine/Events.lean ====
section
/-! DEFINITION. The event controller (10): who binds and owns a source, winners, claims and completions. -/
namespace Sys2Proof.Machine

/-- A source field of a unit register (10 R368): register address, low bit, the unit's bit map and number. -/
structure SrcField where
  addr : Nat
  lo : Nat
  sel : FnDesc → Nat
  res : Nat

/-- Every source field of tile `t`'s units (11 R430, 12 R454, 15 R545, 16 R570, 17 R598, R599). -/
def srcFields (t : Nat) : List SrcField :=
  ((List.range 8).flatMap fun k =>
    let b := ta t (0x530000 + k * 0x800); let p := t * 8 + k
    [⟨b + 0x30, 0, FnDesc.ports, p⟩, ⟨b + 0x30, 10, FnDesc.ports, p⟩, ⟨b + 0x30, 20, FnDesc.ports, p⟩,
     ⟨b + 0x34, 0, FnDesc.ports, p⟩, ⟨b + 0x34, 10, FnDesc.ports, p⟩] ++
    ((List.range 8).map fun f => ⟨b + 0x100 + f * 0x20, 0, FnDesc.ports, p⟩) ++
    [⟨ta t (0x50200C + k * 0x80), 0, FnDesc.pairs, p⟩, ⟨ta t (0x50200C + k * 0x80), 10, FnDesc.pairs, p⟩,
     ⟨ta t (0x50200C + k * 0x80), 20, FnDesc.pairs, p⟩,
     ⟨ta t (0x560008 + k * 0x40), 0, FnDesc.pwms, p⟩, ⟨ta t (0x560008 + k * 0x40), 10, FnDesc.pwms, p⟩,
     ⟨ta t (0x560008 + k * 0x40), 20, FnDesc.pwms, p⟩, ⟨ta t (0x56000C + k * 0x40), 0, FnDesc.pwms, p⟩,
     ⟨ta t (0x56000C + k * 0x40), 10, FnDesc.pwms, p⟩]) ++
  ((List.range 32).flatMap fun m =>
    [⟨ta t (0x520004 + m * 0x80), 0, FnDesc.mbxs, t * 32 + m⟩, ⟨ta t (0x520004 + m * 0x80), 10, FnDesc.mbxs, t * 32 + m⟩,
     ⟨ta t (0x520004 + m * 0x80), 20, FnDesc.mbxs, t * 32 + m⟩,
     ⟨ta t (0x54000C + m * 0x100), 0, FnDesc.psqs, t * 32 + m⟩, ⟨ta t (0x54000C + m * 0x100), 10, FnDesc.psqs, t * 32 + m⟩,
     ⟨ta t (0x54000C + m * 0x100), 20, FnDesc.psqs, t * 32 + m⟩, ⟨ta t (0x540010 + m * 0x100), 0, FnDesc.psqs, t * 32 + m⟩]) ++
  ((List.range 16).flatMap fun n =>
    [⟨ta t (0x550004 + n * 0x40), 0, FnDesc.tmrs, t * 16 + n⟩, ⟨ta t (0x550004 + n * 0x40), 10, FnDesc.tmrs, t * 16 + n⟩,
     ⟨ta t (0x550004 + n * 0x40), 20, FnDesc.tmrs, t * 16 + n⟩])

/-- The function whose unit's source field names source `n` of tile `t` (10 R653): by the staged copies. -/
def srcNamer (s : State) (t n : Nat) : Option Nat :=
  (srcFields t).findSome? fun x => if fld (sg s x.addr) x.lo 10 = n then binder s x.sel x.res else none

/-- The function that binds general source `n` (10 R653): by its DOORBELLS list, or by a source field. -/
def srcFn (s : State) (t n : Nat) : Option Nat :=
  match s.hdr.bind fun h => h.fns.findIdx? fun d => d.doorbells.contains (t, n) with
  | some f => some f
  | none => if n ≤ 0x37F then srcNamer s t n else none

/-- The parcel that owns source `n` of tile `t` (10 R366). -/
def srcOwner (s : State) (t n : Nat) : Nat :=
  if n ≤ 0x37F then ownerOf s (srcFn s t n)
  else if n ≤ 0x3BF then (if n - 0x380 < nFn s then fnParcel s (n - 0x380) else 0)
  else if n = 0x3C2 then ((s.hdr.map fun h => if h.timekeeper < 16 then h.timekeeper else 0).getD 0)
  else if 0x3D0 ≤ n ∧ n ≤ 0x3DF then n - 0x3D0
  else if 0x3E0 ≤ n ∧ n ≤ 0x3EF then n - 0x3E0
  else 0

/-- May a source field of a unit of function `f?` on tile `t` hold `n` (10 R368, R653)? -/
def srcFieldOk (s : State) (f? : Option Nat) (t n : Nat) : Bool :=
  n == 0x3FF || (decide (n ≤ 0x37F) && (match srcFn s t n with | none => true | some g => f? == some g))

/-- Raises the source that a live register's field names; 0x3FF raises nothing. -/
def raiseField (s : State) (t off lo : Nat) : State := raiseEdge s t (fld (rg s (ta t off)) lo 10)

/-! ## Winners (R373) -/

/-- Of the pending, not active sources of a tile that satisfy `ok`, the one of highest priority, lowest number. -/
def winnerOf (s : State) (t : Nat) (ok : Nat → Src → Bool) : Option Nat :=
  s.srcs.foldl (fun best e =>
    if e.1 / 1024 == t && e.2.pend && !e.2.act && ok (e.1 % 1024) e.2 then
      match best with
      | none => some (e.1 % 1024)
      | some b => if (getSrc s (t * 1024 + b)).prio.toNat < e.2.prio.toNat then some (e.1 % 1024) else some b
    else best) none

/-- The winner for context `c`: sources of its running function that target it. -/
def ctxWinner (s : State) (c : Nat) : Option Nat :=
  winnerOf s (c / 256) fun _ x => x.loaded && !x.host && x.tgt == c % 256 && isRunning s (some x.fn)

/-- Does a source record of a loaded function name source `n` of tile `t`? -/
def recNames (s : State) (t n : Nat) : Bool :=
  s.fns.any fun e => ((e.2.sched.map Sched.srcs).getD []).any fun r => r.tile == t && r.n == n

/-- Does a source take part in parcel `p`'s claims (R382)? Once an enable has been accepted, by its binding; before, only a fixed source
that no record names. -/
def hostPart (s : State) (t p n : Nat) (x : Src) : Bool :=
  srcOwner s t n == p &&
  (if x.loaded then x.host && isRunning s (some x.fn) else decide (0x380 ≤ n) && !recNames s t n)

/-- The source that a claim by parcel `p` on tile `t` would return (R382). -/
def hostWinner (s : State) (t p : Nat) : Option Nat := winnerOf s t (hostPart s t p)

/-- EVC_HSTATp.ANY. -/
def hostAny (s : State) (t p : Nat) : Bool := (hostWinner s t p).isSome

/-- Delivers a source: to a context's local number, or to a host. -/
def deliver (s : State) (t n : Nat) (h : Option Nat) : State := modSrc s (t * 1024 + n) fun x => x.onDeliver h

/-- Completes every source that is active for context `c` (R379). -/
def completeAll (s : State) (c : Nat) : State :=
  s.srcs.foldl (fun s e =>
    if e.1 / 1024 == c / 256 && e.2.act && e.2.holder == some (c % 256) then modSrc s e.1 Src.onComplete else s) s

/-- Completes one source. -/
def completeSrc (s : State) (t n : Nat) : State := modSrc s (t * 1024 + n) Src.onComplete

/-- SPLIT of context `c` (R374, R394), live. -/
def splitOf (s : State) (c : Nat) : Nat := min (fld (rg s (ta (c / 256) (0x516000 + c % 256 * 4))) 28 4) 8

/-- The group of source `n` for context `c` (R374). -/
def groupOf (s : State) (c n : Nat) : Nat := (getSrc s (c / 256 * 1024 + n)).prio.toNat >>> splitOf s c

/-- Clears every bit of the sources that function `f` binds (R381). -/
def clearFnSrcs (s : State) (f : Nat) : State :=
  s.srcs.foldl (fun s e =>
    let t := e.1 / 1024; let n := e.1 % 1024
    if (e.2.loaded && e.2.fn == f) || srcFn s t n == some f then
      modSrc s e.1 fun x => { x with pend := false, act := false, lvl := false, miss := false, holder := none }
    else s) s

/-! ## Register operations of the controller -/

/-- EVC_CLAIMp read (R382): the winner, delivered where the read has its effect. -/
def evcClaim (s : State) (acc : Acc) (t p : Nat) : State × Word :=
  match hostWinner s t p with
  | none => (s, 0x3FF)
  | some n => (if acc.effect then deliver s t n none else s, BitVec.ofNat 32 n)

/-- EVC_COMPLp write (R380): completes an active host source; otherwise BADC. -/
def evcComplete (s : State) (t p : Nat) (v : Word) : State × Done :=
  let n := fld v 0 10
  let x := getSrc s (t * 1024 + n)
  if !srcExists t n then (s, .refused)
  else if srcOwner s t n != p then (s, .refused)
  else if x.act && x.holder == none then (completeSrc s t n, .ok)
  else (modRg s (ta t (0x510108 + p * 16)) fun w => setBit w 16 true, .ok)

/-- EVC_DOORBELL write (R387): an edge message for the named source; a source that does not exist, or is unbound, refuses it
(R367, 01 R37). The rights over the source are checked by `doorbellOk`. -/
def ringDoorbell (s : State) (t : Nat) (v : Word) : State :=
  let n := fld v 0 10
  countTile (raiseEdge s t n) t 0x44 (srcOwner s t n)

/-- May the access ring source `n` of tile `t` (R367, R387, 01 R37)? -/
def doorbellOk (s : State) (a : Acc) (t n : Nat) : Bool :=
  srcExists t n && (decide (0x37F < n) || (srcFn s t n).isSome) && allows s a t (srcOwner s t n) rSWHD true

/-- EVC_SSTATn write (R393): MISS is W1C; PCLR, then PSET. -/
def evcStatWrite (s : State) (t n : Nat) (v : Word) : State :=
  let s := modSrc s (t * 1024 + n) fun x => { x with miss := x.miss && !bit v 3, pend := x.pend && !bit v 5 }
  if bit v 4 then raiseEdge s t n else s

/-- Rights and codes of the controller's registers (R386 to R394). -/
def evcDesc (s : State) (t o : Nat) : Option Desc :=
  if o = 0 then some { rd := rAll, wr := rAll, rw := 0 }
  else if 0x100 ≤ o && o < 0x200 then
    let p := (o - 0x100) / 16
    match o % 16 with
    | 0 => some { own := p, rd := { rSWHD with k := p == 0 } }
    | 4 => some { own := p, rd := rAll, wr := { rSWHD with k := p == 0 } }
    | 8 => some { own := p, rd := { rSWHD with k := p == 0 }, wr := { rSWHD with k := p == 0 }, w1c := msk 16 1 }
    | _ => none
  else if 0x1000 ≤ o && o < 0x4FF0 then
    let n := (o - 0x1000) / 16
    let own := srcOwner s t n
    let f? := srcFn s t n
    let u := if n ≤ 0x37F then some f? else none
    let rd : Rt := { rSWHD with k := own == 0 }
    if !srcExists t n then none
    else match o % 16 with
    | 0 => some { own, unit := u, rd, wr := rSHD, staged := true, rw := 1 }
    | 4 => some { own, unit := u, rd, wr := rSHD, staged := true, rw := msk 2 18 }
    | 8 => some { own, unit := u, rd, wr := rd }
    | _ => none
  else if 0x6000 ≤ o && o < 0x6400 && o % 4 = 0 then
    let c := t * 256 + (o - 0x6000) / 4
    some { own := ctxParcel s c, unit := some (fnOfCtx s c), rd := rSWHD, wr := rSHD, staged := true, rw := msk 28 4 }
  else none

/-- Reads of the controller's registers. -/
def evcRead (s : State) (d : Desc) (acc : Acc) (t o : Nat) : State × Word :=
  let a := ta t (0x510000 + o)
  if o = 0 then (s, 0)
  else if o < 0x200 then
    let p := (o - 0x100) / 16
    match o % 16 with
    | 0 => evcClaim s acc t p
    | 8 => (s, fields [(17, 1, (hostAny s t p).toNat), (16, 1, (bit (rg s a) 16).toNat), (0, 10, (hostWinner s t p).getD 0x3FF)])
    | _ => (s, 0)
  else if o < 0x4FF0 then
    let n := (o - 0x1000) / 16
    let x := getSrc s (t * 1024 + n)
    match o % 16 with
    | 0 => (s, fields [(31, 1, x.loaded.toNat), (25, 6, if x.loaded then x.fn else 0),
                       (24, 1, (x.loaded && x.host || (!x.loaded && decide (0x380 ≤ n))).toNat), (16, 8, x.prio.toNat),
                       (8, 8, if x.host then 0 else x.tgt), (4, 4, srcOwner s t n), (0, 1, fld (sg s a) 0 1)])
    | 8 => (s, fields [(3, 1, x.miss.toNat), (2, 1, x.lvl.toNat), (1, 1, x.act.toNat), (0, 1, x.pend.toNat)])
    | _ => plainRead s d acc a
  else
    let x := getCtx s (t * 256 + (o - 0x6000) / 4)
    (s, fields [(28, 4, fld (sg s a) 28 4), (16, 10, x.asrc.toNat), (0, 10, x.isrc.toNat)])

/-- Writes of the controller's registers, the rights already checked but for EVC_DOORBELL's, which its value names. -/
def evcWrite (s : State) (d : Desc) (acc : Acc) (t o : Nat) (v : Word) : State × Done :=
  let a := ta t (0x510000 + o)
  if o = 0 then (if doorbellOk s acc t (fld v 0 10) then (ringDoorbell s t v, .ok) else (s, .refused))
  else if o < 0x200 then
    if o % 16 = 4 then evcComplete s t ((o - 0x100) / 16) v else (plainWrite s d a v, .ok)
  else if o < 0x4FF0 then
    if o % 16 = 8 then (evcStatWrite s t ((o - 0x1000) / 16) v, .ok) else (plainWrite s d a v, .ok)
  else (plainWrite s d a (if fld v 28 4 > 8 then setFld v 28 4 8 else v), .ok)

end Sys2Proof.Machine
end

