-- ==== Sys2Proof/Machine/Context.lean ====
section
/-! DEFINITION. Contexts and engines below the instruction level: task-state block check, activations, the choice of the
context that runs, the unhandled path, engine faults and locks (05, 09, 14). -/
namespace Sys2Proof.Machine

/-- SW of a context (05 R193). TBF and TBNE count the uncommitted entries; that they leave out committed ones in release is the model's
choice: notes/assumptions/37.md. -/
def Ctx.sw (x : Ctx) : Word :=
  fields [(10, 2, x.priv.toNat), (9, 1, x.exl.toNat), (8, 1, x.ie.toNat), (3, 1, (decide (x.tb.length = 32)).toNat),
          (2, 1, (!x.tb.isEmpty).toNat), (0, 1, x.rpt.toNat)]

/-- May TSBP of context `c` hold `v` (05 R194)? -/
def tsbpOk (s : State) (c : Nat) (v : Word) : Bool :=
  let a := (v &&& ~~~0x7F#32).toNat
  a == 0 || (a / 0x1000000 == c / 256 && decide (a % 0x1000000 < 0x400000) &&
             (granTag s (c / 256) (a % 0x1000000 / 256)).1 == ctxParcel s c)

/-- TSBOK of context `c` (09 R345). -/
def tsbOk (s : State) (c : Nat) : Bool := decide ((getCtx s c).tsbp ≠ 0) && tsbpOk s c (getCtx s c).tsbp

/-- The commit snapshot of a context as it stands, with a program counter (05 R208). -/
def Ctx.snapAt (x : Ctx) (pc : BitVec 20) : Snapshot :=
  { v := x.v, pc := pc, priv := x.priv, exl := x.exl, ie := x.ie, rpt := x.rpt }

/-- V0 to V15, program counter and SW from the commit snapshot; uncommitted entries discarded; nothing in progress (R214). -/
def Ctx.restore (x : Ctx) : Ctx :=
  { x with v := x.snap.v, pc := x.snap.pc, priv := x.snap.priv, exl := x.snap.exl, ie := x.snap.ie, rpt := x.snap.rpt,
           tb := [], wait := .none, got := [], micro := none, rep := {}, mid := false, exent := false, entering := none, ending := false,
           stopped := false, slotHeld := false }

/-! ## Which context runs (R186 to R188, 04 R169 to R171) -/

/-- The contexts resident on engine `e` of tile `t`. -/
def residents (s : State) (t e : Nat) : List Nat :=
  (s.ctxs.filter fun x => x.1 / 256 == t && x.2.resident && engOf s x.1 == e).map Prod.fst

/-- Engine `e` is in slot mode (04 R169). -/
def slotMode (s : State) (t e : Nat) : Bool := (residents s t e).any fun c => quiet s (ctxParcel s c)

/-- The parcels of the contexts resident on an engine, rising. -/
def engParcels (s : State) (t e : Nat) : List Nat :=
  (List.range 16).filter fun p => (residents s t e).any fun c => ctxParcel s c == p

/-- On a slot-mode engine: the present slot is parcel `p`'s, and its first 120 ns have not passed (04 R170, R171). -/
def slotOpen (s : State) (t e p : Nat) : Bool :=
  let w := (now s t).toNat % 1024
  let k := w / 128
  decide (w % 128 < 120) &&
  (match engParcels s t e with
   | [_] => true
   | lo :: _ => if p == lo then k % 2 == 0 else k % 2 == 1
   | [] => true)

/-- On a slot-mode engine an access or fetch of `k` ns starts only where it ends within the first 120 ns of the slot (04 R171). -/
def slotTime (s : State) (c k : Nat) : Bool :=
  !slotMode s (c / 256) (engOf s c) || decide ((now s (c / 256)).toNat % 128 + k ≤ 120)

/-- The fixed time, in ns, of an access to address `a` by a slot-mode engine (04 R172). -/
def slotNs (a : Nat) : Nat := if a % 0x1000000 < 0x400000 then 64 else if a % 0x1000000 < 0x500000 then 32 else 96

/-- When an access to `a` that context `c` issues now completes on a slot-mode engine. -/
def slotDue (s : State) (c a : Nat) : Option DWord :=
  if slotMode s (c / 256) (engOf s c) then some (now s (c / 256) + BitVec.ofNat 64 (slotNs a)) else none

/-- The Datum of tile `t` has reached a fixed time. -/
def dueNow (s : State) (t : Nat) (d : Option DWord) : Bool := match d with | some w => atOrAfter (now s t) w | none => true

/-- The context may run now as far as slots go. -/
def slotOk (s : State) (c : Nat) : Bool :=
  !slotMode s (c / 256) (engOf s c) || slotOpen s (c / 256) (engOf s c) (ctxParcel s c)

/-- READY, or ACTIVE and not stalled, on an engine in service, in its parcel's slot (R186). -/
def eligible (s : State) (c : Nat) : Bool :=
  let x := getCtx s c
  let e := getEng s (c / 256 * 16 + engOf s c)
  x.resident && (decide (x.st = .ready) || decide (x.st = .active)) && !e.locked && !e.retired && slotOk s c

/-- Resident priority of a context. -/
def resPrio (s : State) (c : Nat) : Nat := ((ctxRec s c).map fun r => r.prio).getD 0

/-- ACTIVE, or ACTIVE until its parcel's slot ended (04 R170). -/
def Ctx.going (x : Ctx) : Bool := decide (x.st = .active) || (x.slotHeld && decide (x.st = .ready))

/-- Context `c` comes before context `d` in the order of R186, R187. -/
def before (s : State) (c d : Nat) : Bool :=
  let hc := isHard s c; let hd := isHard s d
  let ac := (getCtx s c).going; let ad := (getCtx s d).going
  if hc && hd && (ac || ad) then ac
  else if hc != hd then hc
  else if resPrio s c != resPrio s d then resPrio s d < resPrio s c
  else if ac != ad then ac
  else (getCtx s c).ran < (getCtx s d).ran

/-- The context that engine `e` of tile `t` runs (R186, R187). Of contexts equal in class, priority and last-run time the lowest number is
taken: the model's choice, notes/assumptions/37.md. -/
def pick (s : State) (t e : Nat) : Option Nat :=
  ((residents s t e).filter (eligible s)).foldl (fun b c =>
    match b with
    | none => some c
    | some d => if before s c d then some c else some d) none

/-- At a microword boundary the engine switches to its choice (R186). Of the shared state that it zeroes (04 R156) the held
doublewords of a block repeat are the part that an instruction could see (07 R268). -/
def resched (s : State) (t e : Nat) : State :=
  match pick s t e with
  | none => s
  | some c =>
    if (getCtx s c).st = .active then s
    else
      let s := (residents s t e).foldl (fun s d =>
        if d = c then s
        else modCtx s d fun x =>
          { x with st := if x.st = .active then .ready else x.st, rep := { x.rep with h13 := none, h14 := none },
                   slotHeld := ctxParcel s d != ctxParcel s c && (x.slotHeld || (decide (x.st = .active) && !slotOk s d)) }) s
      countCtx (modCtx s c fun x => { x with st := .active, slotHeld := false }) c 0x08

/-- The switch on the engine of context `c`. -/
def reschedOf (s : State) (c : Nat) : State := resched s (c / 256) (engOf s c)

/-! ## Activations (R184) -/

/-- An activation starts at a vector: program counter, privilege 2, IE, RPT, EXL clear, commit snapshot. -/
def activate (s : State) (c : Nat) (vec : BitVec 20) (asrc : BitVec 10) : State :=
  let s := modCtx s c fun x =>
    let y := { x with pc := vec &&& 0xFFFFC, priv := 2, ie := false, rpt := false, exl := false, act := true, st := .ready,
                      asrc := asrc, isrc := 0x3FF, tb := [], wait := .none, got := [], micro := none, rep := {}, mid := false,
                      slotHeld := false, exent := false, entering := none, ending := false, stopped := false, ecause := 0, edetail := 0, eaddr := 0, epc := 0 }
    { y with snap := y.snapAt (vec &&& 0xFFFFC) }
  countCtx s c 0x09

/-- The pairs whose schedule records name context `c` (12 R434), as cluster pair numbers. -/
def pairsOfCtx (s : State) (c : Nat) : List Nat :=
  match (fnOfCtx s c).bind fun f => (getFn s f).sched with
  | some sc => (sc.pairs.filter fun r => r.ctx == c).map PairRec.pair
  | none => []

/-- The pair that the activation of context `c` serves, or else its first: a pair of the context, without a frame (12 R443). -/
def pairOfCtx (s : State) (c : Nat) : Option Nat :=
  let l := pairsOfCtx s c
  (l.find? fun k => (getPair s k).serving).or l.head?

/-- The hard context of a pair. -/
def ctxOfPair (s : State) (k : Nat) : Option Nat :=
  (fnOfPair s k).bind fun f => (getFn s f).sched.bind fun sc =>
    (sc.pairs.find? fun r => r.pair == k).map fun r => r.ctx

/-- Frame `i` of pair `k` starts an activation of its context (12 R441): TSIN and TSOUT are fixed in their registers (R453). -/
def startServe (s : State) (k c i : Nat) : State :=
  let x := getPair s k
  match x.frames[i]? with
  | none => s
  | some fr =>
    let b := ta (k / 8) (0x502000 + k % 8 * 0x80)
    let s := setPair s k { x with serving := true, cur := none, nochunk := false,
                                  frames := x.frames.set i { fr with served := true, held := false } }
    let s := setRg (setRg s (b + 0x18) (fr.tsin.setWidth 32)) (b + 0x1C) ((fr.tsin >>> 32).setWidth 32)
    let s := setRg (setRg s (b + 0x20) (fr.tsout.setWidth 32)) (b + 0x24) ((fr.tsout >>> 32).setWidth 32)
    activate s c ((rg s (b + 8)).setWidth 20) 0x3FE

/-- The oldest held start-of-frame of the pairs of context `c`: pair and frame. -/
def oldestHeld (s : State) (c : Nat) : Option (Nat × Nat) :=
  let l := (pairsOfCtx s c).flatMap fun k =>
    (getPair s k).frames.zipIdx.filterMap fun x => if x.1.held then some (k, x.2, x.1.at_) else none
  (l.foldl (fun (b : Option (Nat × Nat × DWord)) x =>
    match b with
    | none => some x
    | some y => if atOrAfter x.2.2 y.2.2 then some y else some x) none).map fun x => (x.1, x.2.1)

/-- A context has become IDLE: the oldest held start-of-frame of its pairs starts the next activation (12 R441). -/
def nextFrame (s : State) (c : Nat) : State :=
  match oldestHeld s c with
  | some (k, i) => if isRunning s (fnOfCtx s c) && decide ((getCtx s c).st = .idle) then startServe s k c i else s
  | none => s

/-- The frame of the activation that ends is closed for its context (12 R444). -/
def closeFrame (s : State) (c : Nat) : State :=
  (pairsOfCtx s c).foldl (fun s k => modPair s k fun x =>
    { x with serving := false, cur := none, nochunk := false,
             frames := if x.serving then x.frames.map fun f => if f.served then { f with closed := true } else f else x.frames }) s

/-- The activation ends: the context is IDLE, its sources are completed (R184, 10 R379). -/
def endActivation (s : State) (c : Nat) : State :=
  let s := completeAll (closeFrame s c) c
  let s := modCtx s c fun x =>
    { x with st := if x.st = .halted ∨ x.st = .locked then x.st else .idle,
             act := false, asrc := 0x3FF, isrc := 0x3FF, wait := .none, got := [],
             micro := none, rep := {}, mid := false, ending := false, stopped := false, slotHeld := false }
  nextFrame s c

/-! ## The unhandled path and the exception records (09 R353 to R356) -/

/-- A record for CFG_XRp, or LOST, with the steward notice. -/
def writeXr (s : State) (t p kind cause ctx : Nat) (pc det addr : Word) : State :=
  let b := ta t (0x500800 + p * 16)
  let s :=
    if bit (rg s b) 31 then modRg s b fun w => bumpFld w 20 8 1
    else setRg (setRg (setRg (setRg s b (fields [(31, 1, 1), (28, 3, kind), (12, 8, cause), (0, 11, ctx)])) (b + 4) pc) (b + 8) det)
           (b + 12) addr
  raiseEdge s t (0x3D0 + p)

/-- Steps 1 to 3 of R353: the snapshot, no uncommitted entries, IDLE, sources completed (also 14 R500). -/
def abandon (s : State) (c : Nat) : State := endActivation (modCtx s c Ctx.restore) c

/-- The unhandled path (R353), or a forgery (R354), by KIND. -/
def unhandled (s : State) (c kind cause : Nat) (pc det addr : Word) : State :=
  writeXr (abandon s c) (c / 256) (ctxParcel s c) kind cause c pc det addr

/-! ## Engine faults (05 R214, 09 R358, 14 R498, R499) -/

/-- Engine `e` of tile `t` stops serving: its resident contexts go LOCKED, their uncommitted entries are discarded. Nothing but the engine's return
(R359) takes them out of LOCKED. -/
def lockContexts (s : State) (t e : Nat) : State :=
  (residents s t e).foldl (fun s c => modCtx s c fun x =>
    { x with st := .locked, tb := [], exent := false, entering := none, micro := none, got := [], rep := {},
             wait := if x.wait = .release then .release else .none }) s

/-- The engine locks by a fault during fault entry (R358). -/
def lockEngine (s : State) (c : Nat) : State :=
  let t := c / 256; let e := engOf s c
  let s := modEng s (t * 16 + e) fun x => { x with locked := true }
  writeFault (lockContexts s t e) t
    { outcome := 4, cls := 0x11, parcel := ctxParcel s c, ctx := c, unit := 0x01, inst := e }

/-- The engine retires (R499). -/
def retireEngine (s : State) (t e : Nat) : State :=
  let s := modEng s (t * 16 + e) fun x => { x with retired := true }
  writeFault (lockContexts s t e) t { outcome := 3, cls := 0x12, unit := 0x01, inst := e }

/-- The frame that the restarted hard context was serving is abandoned for it (12 R446). -/
def abandonFrame (s : State) (c : Nat) : State :=
  (pairsOfCtx s c).foldl (fun s k => modPair s k fun x =>
    if x.serving then { x with cur := none, frames := x.frames.map fun f => if f.served && !f.closed then { f with abandoned := true } else f }
    else x) s

/-- An engine fault of context `c` (R214): restart from the commit point, after a release in progress (R212); counted; a third
within 10 ms retires the engine (R499); during exception entry it locks (R358). -/
def engineFault (s : State) (c : Nat) : State :=
  let t := c / 256; let e := engOf s c
  let x := getCtx s c
  if x.exent then lockEngine s c
  else if !x.act || x.st = .locked then fltCount s t 0 16
  else
    let s := fltCount s t 0 16
    let s := countCtx s c 0x10
    let s := abandonFrame s c
    let s := modCtx s c fun x =>
      let y := x.restore
      let y := { y with ending := x.ending && !x.rel.isEmpty }
      if x.rel.isEmpty then { y with st := if x.st = .halted then .halted else .ready }
      else { y with st := if x.st = .halted then .halted else .stalled, wait := .release, restart := true }
    let s := modEng s (t * 16 + e) fun g => { g with faults := (now s t :: g.faults).take 3 }
    match (getEng s (t * 16 + e)).faults with
    | [a, _, b] => if atOrAfter (b + 10000000) a && !(getEng s (t * 16 + e)).retired then retireEngine s t e else s
    | _ => s

/-- FLT_STAT.LOCK and RETIRED of tile `t` (14 R514, R499). -/
def anyLocked (s : State) (t : Nat) : Bool := (List.range 16).any fun e => (getEng s (t * 16 + e)).locked
def anyRetired (s : State) (t : Nat) : Bool := (List.range 16).any fun e => (getEng s (t * 16 + e)).retired

/-! ## The context file (05 R181, R182, R195 to R197; 04 R158) -/

/-- V0 to V15, program counter, SW, TSBP zeroed, traverse buffer emptied, FREE (04 R158). -/
def zeroCtx (s : State) (c : Nat) : State := setCtx s c { priv := 0 }

/-- At an accepted enable a context becomes resident (R181); a HALTED one stays HALTED (18 R611). -/
def residentCtx (s : State) (c : Nat) : State :=
  modCtx s c fun x => { x with resident := true, st := if x.st = .halted then .halted else .idle }

/-- At the entry to QUIESCENT a context is saved and its slot freed (R181); a LOCKED one from its snapshot (09 R359). -/
def parkCtx (s : State) (c : Nat) : State :=
  modCtx s c fun x =>
    let y := if x.st = .locked then { x.restore with act := false, asrc := 0x3FF, isrc := 0x3FF } else x
    { y with resident := false, st := if x.st = .halted then .halted else .parked }

/-- CTX_INFO (R196). -/
def ctxInfo (s : State) (c : Nat) : Word :=
  let f? := fnOfCtx s c
  let r? := ctxRec s c
  let p := ctxParcel s c
  fields [(31, 1, f?.isSome.toNat), (25, 6, f?.getD 0), (24, 1, (isHard s c).toNat), (20, 4, (r?.map fun r => r.eng).getD 0),
          (16, 4, p), (8, 8, (r?.map fun r => r.prio).getD 0), (6, 2, (ceiling s p).toNat),
          (0, 3, match (getCtx s c).st with
                 | .free => 0 | .parked => 1 | .idle => 2 | .ready => 3 | .active => 4 | .stalled => 5 | .halted => 6 | .locked => 7)]

/-- Rights of the context file window (R195, R196): reads of most registers and every write need a HALTED context. -/
def winDesc (s : State) (t o : Nat) : Option Desc :=
  let c := t * 256 + o / 256
  let d : Desc := { own := ctxParcel s c, rd := rD, wr := rD }
  let h := decide ((getCtx s c).st = .halted)
  match o % 256 with
  | 0x00 | 0x04 | 0x0C | 0x30 | 0x34 | 0x38 | 0x3C =>
    some { d with rd := if h then rD else rNone, wr := if h then rD else rNone }
  | 0x14 => some { d with rd := if h then rD else rNone, wr := rNone }
  | 0x08 | 0x10 => some { d with wr := rNone }
  | 0x20 => some { d with wr := if h then rD else rNone }
  | _ => none

/-- Reads of the window (R196). -/
def winRead (s : State) (t o : Nat) : Word :=
  let c := t * 256 + o / 256
  let x := getCtx s c
  match o % 256 with
  | 0x00 => x.pc.setWidth 32
  | 0x04 => x.sw
  | 0x08 => ctxInfo s c
  | 0x0C => x.tsbp
  | 0x10 => fields [(31, 1, (!x.rel.isEmpty).toNat), (0, 6, x.tb.length)]
  | 0x14 => x.snap.pc.setWidth 32
  | 0x20 => x.vsel.setWidth 32
  | k => if 0x30 ≤ k ∧ k < 0x40 then ((vget 0 x.v x.vsel.toNat) >>> (8 * (k - 0x30))).setWidth 32 else 0

/-- CTX_SW written by a debugger (R196): IE, RPT, PRIV; the whole is ignored, with the refusal flag, for a PRIV below the
ceiling or 0b11. -/
def winSw (s : State) (c : Nat) (v : Word) : State :=
  let p := fld v 10 2
  if p = 3 || p < (ceiling s (ctxParcel s c)).toNat then { s with dbg := { s.dbg with refused := true } }
  else modCtx s c fun x => { x with priv := BitVec.ofNat 2 p, ie := bit v 8, rpt := bit v 0 }

/-- CTX_TSBP written by a debugger (R194): refused where the address does not pass. -/
def winTsbp (s : State) (c : Nat) (v : Word) : State × Done :=
  if tsbpOk s c v then (modCtx s c fun x => { x with tsbp := v &&& ~~~0x7F#32 }, .ok) else (s, .refused)

/-- CTX_VDATA3 written: the held lanes and lane 3 into the selected register (R197). -/
def winV3 (s : State) (c : Nat) (v : Word) : State :=
  modCtx s c fun x =>
    let old := vget 0 x.v x.vsel.toNat
    let new := (x.vheld ++ [(3, v)]).foldl (fun w (e : Nat × Word) => setFld w (32 * e.1) 32 e.2.toNat) old
    { x with v := vset x.v x.vsel.toNat new, vheld := [] }

/-- Writes of the window. -/
def winWrite (s : State) (t o : Nat) (v : Word) : State × Done :=
  let c := t * 256 + o / 256
  match o % 256 with
  | 0x00 => (modCtx s c fun x => { x with pc := (v.setWidth 20) &&& 0xFFFFC }, .ok)
  | 0x04 => (winSw s c v, .ok)
  | 0x0C => winTsbp s c v
  | 0x20 => (modCtx s c fun x => { x with vsel := v.setWidth 4, vheld := if x.vsel = v.setWidth 4 then x.vheld else [] }, .ok)
  | 0x3C => (winV3 s c v, .ok)
  | k => (modCtx s c fun x => { x with vheld := (x.vheld.filter fun e => e.1 != (k - 0x30) / 4) ++ [((k - 0x30) / 4, v)] }, .ok)

end Sys2Proof.Machine
end

