-- ==== Sys2Proof/Machine/Flits.lean ====
section
/-! DEFINITION. Chain links below the bus (13): topology, routes, sending, replay, acknowledgement. -/
namespace Sys2Proof.Machine

/-- The peer tile of link `k` of tile `t` in a cluster of `n` tiles (R456). -/
def peerOf (n t k : Nat) : Nat :=
  if n = 2 then t ^^^ 1
  else if n = 4 then (match k with | 1 => t ^^^ 3 | 2 => t ^^^ 2 | _ => t ^^^ 1)
  else (match k with
        | 0 => t ^^^ 1
        | 1 => if t % 2 = 0 then (t + n - 1) % n else (t + 1) % n
        | 2 => (t + 2) % n
        | _ => (t + n - 2) % n)

/-- The link of the peer that link `k` of tile `t` meets: the one whose peer is `t`, of the same kind. -/
def peerLink (n _t k : Nat) : Nat := if n = 8 then (match k with | 2 => 3 | 3 => 2 | x => x) else k

/-- Link `k` of tile `t` carries flits: UP or DEGRADED (R467). -/
def linkLive (s : State) (t k : Nat) : Bool :=
  let l := getLink s (t * 4 + k)
  decide (l.st = .up) || decide (l.st = .degraded)

/-- The route of tile `t` to tile `d`: link, and the tile in between where two hops (R468). -/
def routeOf (s : State) (t d : Nat) : Option (Nat × Option Nat) :=
  match (List.range 4).find? fun k => linkLive s t k && peerOf s.nTiles t k == d with
  | some k => some (k, none)
  | none =>
    match (List.range 4).find? fun k => linkLive s t k &&
        (let m := peerOf s.nTiles t k
         (List.range 4).any fun j => peerOf s.nTiles m j == d && (getTile s t).peers.contains (m * 4 + j)) with
    | some k => some (k, some (peerOf s.nTiles t k))
    | none => none

/-! ## The flit on the wire (R460) -/

/-- Is the type sequenced (R461)? -/
def sequenced (fl : Flit) : Bool := fl.typ != 0 && fl.typ != 0xC

/-- The kind of a CTRL flit and its further field. -/
def ctlKind (fl : Flit) : Nat := fl.addr.toNat % 256
def ctlHi (fl : Flit) : Nat := fl.addr.toNat / 256

/-- Link-state notices and tile keys. -/
def ctlLinks : Nat := 0
def ctlKey : Nat := 1

/-- The 64 bytes of a flit, its CRC the last four. -/
def flitBytes (fl : Flit) : List Byte :=
  let b := leBytes 1 (fl.typ.toNat + fl.vc.toNat * 16 + fl.ackv.toNat * 64 + fl.more.toNat * 128) ++ leBytes 1 fl.len.toNat ++
    leBytes 2 fl.lseq.toNat ++ leBytes 2 fl.lack.toNat ++ leBytes 1 (fl.src.toNat + fl.dst.toNat * 16) ++ leBytes 1 fl.fwd.toNat ++
    leBytes 2 fl.eseq.toNat ++ leBytes 2 (fl.parcel.toNat + fl.priv.toNat * 16 + fl.kind.toNat * 64) ++ leBytes 2 fl.issuer.toNat ++
    leBytes 2 fl.tag.toNat ++ leBytes 4 fl.addr.toNat ++ leBytes 4 fl.aux.toNat ++ leBytes 32 fl.payload.toNat ++ leBytes 4 0
  b ++ leBytes 4 (crc32c b).toNat

/-- A flit of a type, with every field zero that the type does not use. -/
def mkFlit (typ : BitVec 4) (vc : BitVec 2) (dst : Nat) : Flit :=
  { typ, vc, ackv := true, more := false, len := 0, lseq := 0, lack := 0, src := 0, dst := BitVec.ofNat 3 dst, fwd := 0, eseq := 0,
    parcel := 0, priv := 0, kind := 3, issuer := 0, tag := 0, addr := 0, aux := 0, payload := 0 }

/-- The IDLE or NAK flit of link `k` of tile `t`: it carries the next LSEQ expected. -/
def bareFlit (s : State) (t k : Nat) (typ : BitVec 4) : Flit :=
  { mkFlit typ 0 (peerOf s.nTiles t k) with src := BitVec.ofNat 3 t, lack := (getLink s (t * 4 + k)).expect }

/-- The flit may pass towards the peer of link `k` (04 R137): before the peer has its key, only SYNC, link-state notices and tile keys. -/
def mayPass (s : State) (t k : Nat) (fl : Flit) : Bool :=
  let m := peerOf s.nTiles t k
  m == 0 || (getTile s m).key.isSome || fl.typ == 0xA || (fl.typ == 0xB && (ctlKind fl == ctlLinks || ctlKind fl == ctlKey))

/-- Room for one more sequenced flit of a VC on a link: replay buffer (R464) and credit (R463). -/
def linkRoom (l : Link) (vc : BitVec 2) : Bool := decide (l.replay.length < 128) && decide (0 < vget 0 l.credits vc.toNat)

/-- Places a flit in the replay buffer with the next LSEQ and sends it; its credit is used. -/
def linkPlace (l : Link) (fl : Flit) (ns : DWord) : Link :=
  let fl := { fl with lseq := l.next, ackv := true, lack := l.expect }
  { l with replay := l.replay ++ [(fl, 1)], next := l.next + 1, sent := flitBytes fl, rr := if fl.vc = 3 then l.rr else fl.vc,
           credits := vset l.credits fl.vc.toNat (vget 0 l.credits fl.vc.toNat - 1),
           progress := if l.replay.isEmpty then ns else l.progress }

/-- The next waiting flit to go: of VC 3, else of VCs 0 to 2 in turn (R463). -/
def linkNext (ok : Flit → Bool) (l : Link) : Option Nat :=
  let first (v : BitVec 2) : Option Nat := l.queue.findIdx? fun f => f.vc == v && ok f && linkRoom l f.vc
  ([3] ++ (List.range 3).map fun i => BitVec.ofNat 2 ((l.rr.toNat + 1 + i) % 3)).findSome? first

/-- Waiting flits that may pass go out while there is room. -/
def linkDrain (ok : Flit → Bool) (ns : DWord) : Nat → Link → Link
  | 0, l => l
  | n + 1, l =>
    match linkNext ok l with
    | some i => match l.queue[i]? with
      | some f => linkDrain ok ns n (linkPlace { l with queue := l.queue.eraseIdx i } f ns)
      | none => l
    | none => l

/-- What waits on link `k` of tile `t` goes out as far as it may. -/
def drainLink (s : State) (t k : Nat) : State :=
  if linkLive s t k then modLink s (t * 4 + k) fun l => linkDrain (mayPass s t k) (now s t) l.queue.length l else s

/-- Puts a flit onto link `k` of tile `t`. -/
def putOnLink (s : State) (t k : Nat) (fl : Flit) : State :=
  countTile (drainLink (modLink s (t * 4 + k) fun l => { l with queue := l.queue ++ [fl] }) t k) t 0x4C 0

/-- Numbers a flit that tile `t` originates with the next ESEQ of its destination and VC (R469). -/
def numberFlit (s : State) (t : Nat) (fl : Flit) : State × Flit :=
  let x := getTile s t
  let key := fl.dst.toNat * 4 + fl.vc.toNat
  let q := sget 0 x.eseqOut key
  (setTile s t { x with eseqOut := sput 0 x.eseqOut key (q + 1) }, { fl with eseq := q, src := BitVec.ofNat 3 t })

/-- Tile `t` originates a flit; `false` where no route reaches its destination. -/
def sendFlit (s : State) (t : Nat) (fl : Flit) : State × Bool :=
  match routeOf s t fl.dst.toNat with
  | none => (s, false)
  | some (k, _) =>
    let (s, fl) := numberFlit s t fl
    (countTile (putOnLink s t k fl) t 0x43 fl.parcel.toNat, true)

/-- Nothing is on its way on link `k` of tile `t`. -/
def linkClear (s : State) (t k : Nat) : Bool :=
  let l := getLink s (t * 4 + k)
  l.replay.isEmpty && l.queue.isEmpty

/-- One hop of a flit that a command both sends and sees accepted: one sequence number at both ends. -/
def carryHop (s : State) (t k : Nat) (fl : Flit) : State :=
  let j := peerOf s.nTiles t k * 4 + peerLink s.nTiles t k
  let s := modLink s (t * 4 + k) fun l => { l with next := l.next + 1, sent := flitBytes { fl with lseq := l.next, lack := l.expect } }
  countTile (modLink s j fun l => { l with expect := l.expect + 1, naked := false, accepted := l.accepted + 1 }) t 0x4C 0

/-- The links that the flit takes from tile `t` are clear, and its destination expects it next. -/
def carryClear (s : State) (t k : Nat) (fl : Flit) : Bool :=
  let d := fl.dst.toNat
  let m := peerOf s.nTiles t k
  let key := fl.vc.toNat
  let q : EseqIn := sget {} (getTile s d).eseqIn (t * 4 + key)
  linkClear s t k && mayPass s t k fl && decide (q = { expect := sget 0 (getTile s t).eseqOut (d * 4 + key) }) &&
  (m == d || ((m == 0 || (getTile s m).key.isSome) && match routeOf s m d with | some (j, none) => linkClear s m j && mayPass s m j fl | _ => false))

/-- Tile `t` sends a flit within a command that lasts until its arrival (start, a load, a wake): with nothing on its way it arrives at once,
with effect `eff`; else it goes out behind what waits, and arrives by its own command. `false` where no route reaches its destination.
notes/assumptions/35.md -/
def carryFlit (s : State) (t : Nat) (fl : Flit) (eff : Flit → State → State) : State × Bool :=
  match routeOf s t fl.dst.toNat with
  | none => (s, false)
  | some (k, _) =>
    if !carryClear s t k fl then sendFlit s t fl
    else
      let d := fl.dst.toNat
      let (s, fl) := numberFlit s t fl
      let s := countTile (carryHop s t k fl) t 0x43 fl.parcel.toNat
      let m := peerOf s.nTiles t k
      let s := if m = d then s else match routeOf s m d with | some (j, _) => carryHop s m j { fl with fwd := fl.fwd + 1 } | none => s
      (eff fl (modTile s d fun x => { x with eseqIn := sput {} x.eseqIn (t * 4 + fl.vc.toNat) { expect := fl.eseq + 1 } }), true)

/-- The next transaction tag of tile `t` (R460). -/
def nextTag (s : State) (t : Nat) : State × BitVec 16 :=
  let x := getTile s t
  (setTile s t { x with tag := x.tag + 1 }, x.tag)

/-- The flit with an access's stamp (R462). -/
def stampFlit (fl : Flit) (a : Acc) : Flit :=
  { fl with parcel := BitVec.ofNat 4 a.parcel, priv := BitVec.ofNat 2 a.priv, kind := BitVec.ofNat 2 a.kind, issuer := BitVec.ofNat 16 a.id }

/-- The stamp that a flit carries. In AUX of a READ, bit 31 is a debugger's consume bit, and bit 30 set by another issuer asks for no side
effect (notes/assumptions/6.md). -/
def accOf (fl : Flit) : Acc :=
  { kind := fl.kind.toNat, id := fl.issuer.toNat, parcel := fl.parcel.toNat, priv := fl.priv.toNat,
    effect := if fl.kind == 2 then bit fl.aux 31 else !bit fl.aux 30 }

/-- A WRITE flit of `n` bytes (R460, R461). -/
def writeFlitOf (a : Acc) (dst : Nat) (addr : Word) (n : Nat) (v : Nat) : Flit :=
  { stampFlit (mkFlit 1 0 dst) a with len := BitVec.ofNat 8 n, addr, aux := BitVec.ofNat 32 (2 ^ n - 1), payload := BitVec.ofNat 256 v }

/-- A READ flit of `n` bytes under a tag. -/
def readFlitOf (a : Acc) (dst : Nat) (addr : Word) (n : Nat) (tag : BitVec 16) : Flit :=
  { stampFlit (mkFlit 2 0 dst) a with len := BitVec.ofNat 8 n, addr, tag, aux := if a.kind = 2 then (if a.effect then 0x80000000 else 0) else if a.effect then 0 else 0x40000000 }

/-! ## CTRL flits: the kinds stand in ADDR bits 7:0 (the layout is the model's: notes/assumptions/6.md) -/

def ctlUnlock : Nat := 2
def ctlGrant : Nat := 3
def ctlMirror : Nat := 4
def ctlGap : Nat := 5
def ctlResync : Nat := 6
def ctlHalt : Nat := 7
def ctlHeader : Nat := 8

/-- A CTRL flit of a kind, with its two words. -/
def ctrlFlitOf (kind dst : Nat) (hi : Nat) (aux : Word) : Flit :=
  { mkFlit 0xB 3 dst with addr := fields [(0, 8, kind), (8, 24, hi)], aux }

/-- Tile `t` tells every peer which of its own links are live (R468). -/
def linkNotice (s : State) (t : Nat) : State :=
  let live := (List.range 4).filter (linkLive s t)
  live.foldl (fun s k =>
    let fl := ctrlFlitOf ctlLinks (peerOf s.nTiles t k) t (ofBits 32 live)
    let (s, fl) := numberFlit s t fl
    putOnLink s t k fl) s

/-- A change of a link's state: its source, and the notices to the peers (R467, R468). -/
def setLinkState (s : State) (t k : Nat) (g : Link → Link) : State :=
  let old := (getLink s (t * 4 + k)).st
  let s := modLink s (t * 4 + k) g
  if (getLink s (t * 4 + k)).st = old then s else linkNotice (raiseEdge s t (0x3C8 + k)) t

/-- The flits of link `k` whose LSEQ is listed are sent again: those whose first copy fails its CRC from the second (14 R494). -/
def maskReplay (s : State) (t k : Nat) (ls : List (Flit × Nat)) : State :=
  let hit := ls.filter fun e => (getLink s (t * 4 + k)).badReplay.contains e.1.lseq
  let s := hit.foldl (fun s e => copyMasked s t 0x0F k e.1.parcel.toNat 0) s
  if hit.isEmpty then s
  else modLink s (t * 4 + k) fun l => { l with badReplay := l.badReplay.filter fun q => !hit.any fun e => e.1.lseq == q }

/-- A SYNC flit is never forwarded (R475): one whose direct link has left service goes on as a link-state notice under the same ESEQ, so that
the sequence has no gap. DESIGN CHOICE: notes/assumptions/35.md -/
def syncOff (s : State) (t : Nat) (fl : Flit) (via : Option Nat) : Flit :=
  if fl.typ = 0xA && via.isSome then
    { ctrlFlitOf ctlLinks fl.dst.toNat t (ofBits 32 ((List.range 4).filter (linkLive s t))) with src := fl.src, eseq := fl.eseq }
  else fl

/-- A flit's destination is reached otherwise than over a link: the unacknowledged flits of a link that left service go out
again over their new routes, in LSEQ order, before later ones (R470). A flit without a route waits on the link. -/
def reroute (s : State) (t k : Nat) : State :=
  let s := maskReplay s t k (getLink s (t * 4 + k)).replay
  let l := getLink s (t * 4 + k)
  let fls := l.replay.map Prod.fst ++ l.queue
  let s := setLink s (t * 4 + k) { l with replay := [], queue := [], badReplay := [] }
  fls.foldl (fun s fl =>
    match routeOf s t fl.dst.toNat with
    | some (j, via) => putOnLink s t j (syncOff s t fl via)
    | none => modLink s (t * 4 + k) fun l => { l with queue := l.queue ++ [fl] }) s

/-- The link is declared failed (R465): record, FAILED, rerouting before any later flit (R470), the notices (R468), retraining at x16. -/
def failLink (s : State) (t k : Nat) : State :=
  let s := modRg s (ta t (0x570100 + k * 0x40)) fun w => setBit w 7 true
  let s := modLink s (t * 4 + k) fun l => { l with st := .failed, tryX8 := false, naked := false, failedAt := now s t, declared := true }
  let s := writeFault (raiseEdge s t (0x3C8 + k)) t { outcome := 3, cls := 0x03, unit := 0x0F, inst := k }
  let s := linkNotice (reroute s t k) t
  setLinkState s t k fun l => { l with st := .training, tryX8 := false }

/-- The peer of link `k` still holds a flit: in its buffers, in its resequencing store, or waiting to go on (R463, R469). -/
def heldByPeer (s : State) (t k : Nat) (fl : Flit) : Bool :=
  let m := peerOf s.nTiles t k
  let same (g : Flit) : Bool := g.src == fl.src && g.dst == fl.dst && g.vc == fl.vc && g.eseq == fl.eseq
  (getLink s (m * 4 + peerLink s.nTiles t k)).rxBuf.any same ||
  (if fl.dst.toNat = m then (sget {} (getTile s m).eseqIn (fl.src.toNat * 4 + fl.vc.toNat)).held.any fun h => same h.1
   else (List.range 4).any fun j => (getLink s (m * 4 + j)).queue.any same)

/-- Acknowledgement: LACK frees the replay buffer before it (R464) and returns the credits of the flits that the peer holds no more
(R463, R469). -/
def takeAck (s : State) (t k : Nat) (lack : BitVec 10) : State :=
  modLink s (t * 4 + k) fun l =>
    let done := l.replay.takeWhile fun e => decide ((lack - e.1.lseq - 1).toNat < 512)
    let out := l.kept ++ done.map Prod.fst
    { l with replay := l.replay.drop done.length, kept := out.filter (heldByPeer s t k),
             badReplay := l.badReplay.filter fun q => !done.any fun e => e.1.lseq == q,
             credits := (out.filter fun f => !heldByPeer s t k f).foldl (fun c f => vset c f.vc.toNat (min 32 (vget 0 c f.vc.toNat + 1))) l.credits,
             progress := if done.isEmpty then l.progress else now s t }

/-- An acknowledgement is taken, and what waited for room goes out. -/
def takeLack (s : State) (t k : Nat) (lack : BitVec 10) : State := drainLink (takeAck s t k lack) t k

/-- Replay from the named LSEQ (R464): each flit sent once more, before any new one; the eighth sending without acceptance fails the link
(R465). -/
def replayFrom (s : State) (t k : Nat) (lseq : BitVec 10) : State :=
  let s := takeAck s t k lseq
  let s := maskReplay s t k (getLink s (t * 4 + k)).replay
  let s := modLink s (t * 4 + k) fun l =>
    { l with replay := l.replay.map fun e => (e.1, e.2 + 1), sent := (l.replay.getLast?.map fun e => flitBytes e.1).getD l.sent }
  let s := modRg s (ta t (0x570108 + k * 0x40)) fun w => bumpFld w 12 12 1
  if (getLink s (t * 4 + k)).replay.any fun e => decide (8 ≤ e.2 - 1) then failLink s t k else drainLink s t k

/-- DEPTH and PARENT of tile `t` (R475, R487): by the live links. -/
def parentOf (s : State) (t : Nat) : Option (Nat × Nat) :=
  if t = 0 then some (0, 0)
  else if (List.range 4).any fun k => linkLive s t k && peerOf s.nTiles t k == 0 then some (0, 1)
  else
    ((List.range s.nTiles).find? fun m => m != 0 && m != t &&
      ((List.range 4).any fun k => linkLive s t k && peerOf s.nTiles t k == m) &&
      ((List.range 4).any fun j => peerOf s.nTiles m j == 0 && (getTile s t).peers.contains (m * 4 + j))).map fun m => (m, 2)

/-- Flits held in the tile's resequencing store (R469). -/
def heldFlits (s : State) (t : Nat) : Nat := (getTile s t).eseqIn.foldl (fun n e => n + e.2.held.length) 0

/-- LNK_ROUTEd (R487). -/
def routeWord (s : State) (t d : Nat) : Word :=
  if s.nTiles ≤ d then 0
  else match routeOf s t d with
    | none => 0
    | some (k, none) => fields [(31, 1, 1), (0, 2, k)]
    | some (k, some m) => fields [(31, 1, 1), (30, 1, 1), (4, 3, m), (0, 2, k)]

/-- Rights and codes of the chain-link registers (R487). -/
def lnkDesc (o : Nat) : Option Desc :=
  let d : Desc := { rd := rKHD, wr := rKHD, dom := domLINK }
  if o = 0 then some d
  else if o = 4 then some { d with w1c := msk 7 1 }
  else if o = 8 then some { d with rc := msk 7 25 }
  else if o = 0xC then some { d with rc := msk 0 32 }
  else if 0x10 ≤ o && o < 0x30 && o % 4 = 0 then some d
  else if 0x100 ≤ o && o < 0x200 then
    match o % 0x40 with
    | 0 => some { d with w1c := msk 7 1 }
    | 4 => some d
    | 8 => some { d with rc := msk 0 32 }
    | 0xC => some d
    | _ => none
  else none

/-- Reads of the chain-link registers. -/
def lnkRead (s : State) (d : Desc) (acc : Acc) (t o : Nat) : State × Word :=
  let a := ta t (0x570000 + o)
  if o = 0 then
    (s, fields [(16, 2, if s.nTiles = 2 then 1 else if s.nTiles = 4 then 2 else 3), (12, 3, peerOf s.nTiles t 3),
                (8, 3, peerOf s.nTiles t 2), (4, 3, peerOf s.nTiles t 1), (0, 3, peerOf s.nTiles t 0)])
  else if o = 4 then
    let p := (parentOf s t).getD (0, 0)
    (s, (rg s a) ||| fields [(8, 2, p.2), (0, 3, p.1)])
  else if o = 8 then
    let (s', v) := plainRead s d acc a
    (s', v ||| fields [(0, 7, heldFlits s t)])
  else if 0x10 ≤ o && o < 0x30 then (s, routeWord s t ((o - 0x10) / 4))
  else if 0x100 ≤ o && o % 0x40 = 0 then
    let l := getLink s (t * 4 + (o - 0x100) / 0x40)
    (s, (rg s a) ||| fields [(6, 1, l.x8.toNat), (5, 1, (l.x8 && l.lanesHi).toNat),
      (0, 3, match l.st with | .down => 0 | .training => 1 | .up => 2 | .degraded => 3 | .failed => 4)])
  else if 0x100 ≤ o && o % 0x40 = 0xC then
    let l := getLink s (t * 4 + (o - 0x100) / 0x40)
    (s, (rg s a) ||| fields [(0, 16, l.accepted / 65536)])
  else plainRead s d acc a

/-- LNK_k_CTL.RETRAIN in FAILED starts a retry at once (R466). -/
def retrainLink (s : State) (t k : Nat) : State :=
  if (getLink s (t * 4 + k)).st = .failed then setLinkState s t k fun l => { l with st := .training, tryX8 := false } else s

/-- Writes of the chain-link registers. -/
def lnkWrite (s : State) (d : Desc) (t o : Nat) (v : Word) : State × Done :=
  if 0x100 ≤ o && o % 0x40 = 4 then (if bit v 0 then retrainLink s t ((o - 0x100) / 0x40) else s, .ok)
  else (plainWrite s d (ta t (0x570000 + o)) v, .ok)

end Sys2Proof.Machine
end

