-- ==== Sys2Proof/Machine/Mailbox.lean ====
section
/-! DEFINITION. Mailboxes and locks (15). -/
namespace Sys2Proof.Machine

/-- A source field of mailbox `m`'s MBXm_EVT: 0 MSGSRC, 10 EMPTYSRC, 20 ABTSRC. -/
def mbxSrc (s : State) (m lo : Nat) : Nat := fld (rg s (ta (m / 32) (0x520004 + m % 32 * 0x80))) lo 10

/-- Class L (R533). -/
def mbxClassL (s : State) (m : Nat) : Bool := bit (rg s (ta (m / 32) (0x520000 + m % 32 * 0x80))) 0

/-- Mailbox `m` has room. -/
def mbxRoom (s : State) (m : Nat) : Bool := decide ((getMbx s m).msgs.length < 8)

/-- MSGSRC follows COUNT (R538). -/
def mbxLevel (s : State) (m : Nat) : State :=
  let x := getMbx s m
  let r := levelMsg s (m / 32) (mbxSrc s m 0) (decide (x.msgs ≠ [])) x.msgAt
  modMbx r.1 m fun x => { x with msgAt := r.2 }

/-- Delivers a closed message to a mailbox with room: stamp, SEQ, MSGSRC (R536, R538). -/
def mbxDeliver (s : State) (m : Nat) (words : List Word) (ident : Word) : State :=
  let s := modMbx s m fun x => { x with msgs := x.msgs ++ [{ words, stamp := ident, seq := x.seq }], seq := x.seq + 1 }
  let s := mbxLevel s m
  countTile s (m / 32) 0x45 (ownerOf s (fnOfMbx s m))

/-- MAILBOX flits of a message: eight words each, chained by MORE (13 R461). -/
def mbxFlits (a : Acc) (m : Nat) (tag : BitVec 16) : List Word → List Flit
  | ws =>
    let fl (xs : List Word) (more : Bool) : Flit :=
      { stampFlit (mkFlit 5 0 (m / 32)) a with
        len := BitVec.ofNat 8 (4 * xs.length), more, tag, addr := BitVec.ofNat 32 (m % 32),
        payload := BitVec.ofNat 256 (leVal (xs.flatMap fun w => leBytes 4 w.toNat)) }
    if ws.length ≤ 8 then [fl ws false] else [fl (ws.take 8) true, fl (ws.drop 8) false]

/-- The sender's open message (R534). -/
def openMsg (s : State) (a : Acc) : Option (Nat × List Word) :=
  if a.kind = 0 then (getCtx s a.id).msg else (sget {} s.hp.stat (if a.kind = 1 then a.id else 32)).open_

/-- CFG_HP_STAT entry of a host requester or of the debugger changed. -/
def modHp (s : State) (a : Acc) (g : HpStat → HpStat) : State :=
  let k := if a.kind = 1 then a.id else 32
  { s with hp := { s.hp with stat := sput {} s.hp.stat k (g (sget {} s.hp.stat k)) } }

/-- The sender's open message set. -/
def setOpenMsg (s : State) (a : Acc) (x : Option (Nat × List Word)) : State :=
  if a.kind = 0 then modCtx s a.id fun c => { c with msg := x } else modHp s a fun h => { h with open_ := x }

/-- The tile at which an access starts: a context's own, tile 0 for the host and the debugger. -/
def homeOf (a : Acc) : Nat := if a.kind = 0 then a.id / 256 else 0

/-- Closes a message (R535): delivered on the sender's tile; sent as MAILBOX flits to another; a full mailbox discards it, with
FULLREF for a host or the debugger. `full` reports the discard. -/
def closeMsg (s : State) (a : Acc) (m : Nat) (words : List Word) : State × Done :=
  let s := setOpenMsg s a none
  if words.isEmpty then (s, .ok)
  else if m / 32 = homeOf a then
    if !powered s (m / 32) domBUF then (s, .refused)
    else if mbxRoom s m then (mbxDeliver s m words a.ident, .ok)
    else (if a.kind = 0 then s else modHp s a fun h => { h with fullref := true }, .full)
  else
    let (s, ok) := (mbxFlits a m 0 words).foldl (fun (r : State × Bool) fl =>
      let (s', ok) := sendFlit r.1 (homeOf a) fl; (s', r.2 && ok)) (s, true)
    (if ok then s else countDeny s (homeOf a) a.parcel, if ok then .ok else .refused)

/-- A write of MBXm_SEND or MBXm_SENDEND (R534): closes an open message for another mailbox, appends, closes at the end or at
the 16th word. -/
def mbxSend (s : State) (a : Acc) (m : Nat) (v : Word) (last : Bool) : State × Done :=
  let (s, r0, words) := match openMsg s a with
    | none => (s, Done.ok, [])
    | some (j, ws) =>
      if j = m then (s, Done.ok, ws)
      else let (s, r) := closeMsg s a j ws; (s, r, [])
  let ws := words ++ [v]
  if last || decide (16 ≤ ws.length) then
    let (s, r) := closeMsg s a m ws
    (s, if r0 = .ok then r else r0)
  else (setOpenMsg s a (some (m, ws)), r0)

/-- The mailboxes on the sender's tile that must have room before this word's write can be released (R535). -/
def mbxWaits (s : State) (a : Acc) (m : Nat) (last : Bool) : Bool :=
  match openMsg s a with
  | none => last && decide (m / 32 = homeOf a) && !mbxRoom s m
  | some (j, ws) =>
    if j = m then (last || decide (15 ≤ ws.length)) && decide (m / 32 = homeOf a) && !mbxRoom s m
    else (decide (j / 32 = homeOf a) && !mbxRoom s j) || (last && decide (m / 32 = homeOf a) && !mbxRoom s m)

/-- The oldest message is used from the copy whose CRC holds (14 R494). -/
def mbxMask (s : State) (m : Nat) : State :=
  match (getMbx s m).msgs with
  | h :: rest =>
    if h.bad then
      copyMasked (modMbx s m fun x => { x with msgs := { h with bad := false } :: rest }) (m / 32) 0x0D (m % 32) (ownerOf s (fnOfMbx s m)) 0
    else s
  | [] => s

/-- A write of MBXm_ACK (R537, R538). -/
def mbxAck (s : State) (m : Nat) (v : Word) : State :=
  let s := mbxMask s m
  let x := getMbx s m
  match x.msgs with
  | h :: rest =>
    if h.seq.toNat = fld v 0 16 then
      let s := setMbx s m { x with msgs := rest }
      if rest.isEmpty then raiseEdge (mbxLevel s m) (m / 32) (mbxSrc s m 10) else s
    else modRg s (ta (m / 32) (0x520008 + m % 32 * 0x80)) fun w => setBit w 0 true
  | [] => modRg s (ta (m / 32) (0x520008 + m % 32 * 0x80)) fun w => setBit w 0 true

/-- A receiver reset (R539): a class C mailbox discards its messages. -/
def mbxReset (s : State) (m : Nat) : State :=
  let n := (getMbx s m).msgs.length
  if mbxClassL s m || n = 0 then s
  else
    let s := modMbx s m fun x => { x with msgs := [] }
    let s := modRg s (ta (m / 32) (0x52000C + m % 32 * 0x80)) fun w => bumpFld w 0 8 n
    raiseEdge (mbxLevel s m) (m / 32) (mbxSrc s m 20)

/-- The parcel that owns lock `n` (R532). -/
def lockOwner (s : State) (n : Nat) : Nat := ownerOf s (fnOfMbx s (n / 64 * 32 + n % 64 / 2))

/-- A read of LCK_n (R541). -/
def lockRead (s : State) (a : Acc) (n : Nat) : State × Word :=
  let h := getLock s n
  let t := n / 64
  if h = 0 then
    if a.effect then (countTile (setLock s n a.ident) t 0x46 a.parcel, 0) else (s, 0)
  else if h = a.ident then (s, 0)
  else (countTile s t 0x47 a.parcel, h)

/-- A write of LCK_REL (R543). -/
def lockRelease (s : State) (a : Acc) (n : Nat) : State := if getLock s n = a.ident then setLock s n 0 else s

/-- Locks that the contexts satisfying `ok` hold are freed (R544). -/
def freeLocks (s : State) (ok : Nat → Bool) : State :=
  { s with locks := s.locks.filter fun e => !(fld e.2 29 2 == 0 && ok (fld e.2 0 11)) }

/-- Rights and codes of the mailbox and lock registers (R545). -/
def mbxDesc (s : State) (t o : Nat) : Option Desc :=
  if o < 0x1000 then
    let m := t * 32 + o / 0x80
    let f? := fnOfMbx s m
    let own := ownerOf s f?
    let ctl : Desc := { own, unit := some f?, rd := rSWHD, wr := rSHD, staged := true }
    let dat : Desc := { own, unit := some f?, rd := rSWHD, wr := rSWHD }
    match o % 0x80 with
    | 0x00 => some { ctl with rw := 1 }
    | 0x04 => if f?.isNone then some { ctl with rd := rNone } else some { ctl with rw := msk 0 30 }
    | 0x08 => some { dat with w1c := 1, rc := msk 24 8 }
    | k =>
      if k % 4 = 0 && (decide (k ≤ 0x24) || decide (0x40 ≤ k)) then
        let d := if f?.isNone then { dat with rd := rNone } else dat
        some (if k = 0xC then { d with rc := msk 0 8 } else if k = 0x1C then { d with wr := rSHD } else d)
      else none
  else if o < 0x1100 && o % 4 = 0 then
    let own := lockOwner s (t * 64 + (o - 0x1000) / 4)
    some { own, rd := rSWHD, wr := rSWHD }
  else if o = 0x1100 || o = 0x1104 then some { rd := rAll, wr := rAll }
  else none

/-- Reads of the mailbox and lock registers. -/
def mbxRead (s : State) (d : Desc) (acc : Acc) (t o : Nat) : State × Word :=
  let a := ta t (0x520000 + o)
  if o < 0x1000 then
    let s := if 0x20 ≤ o % 0x80 then mbxMask s (t * 32 + o / 0x80) else s
    let x := getMbx s (t * 32 + o / 0x80)
    match o % 0x80 with
    | 0x08 => let (s', v) := plainRead s d acc a; (s', v ||| fields [(16, 4, x.msgs.length)])
    | 0x20 => (s, match x.msgs with | h :: _ => fields [(31, 1, 1), (16, 5, h.words.length), (0, 16, h.seq.toNat)] | [] => 0)
    | 0x24 => (s, match x.msgs with | h :: _ => h.stamp | [] => 0)
    | k => if 0x40 ≤ k then (s, match x.msgs with | h :: _ => (h.words[(k - 0x40) / 4]?).getD 0 | [] => 0)
           else if 0x10 ≤ k then (s, 0) else plainRead s d acc a
  else if o < 0x1100 then lockRead s acc (t * 64 + (o - 0x1000) / 4)
  else (s, 0)

/-- Writes of the mailbox and lock registers; LCK_REL and LCK_FORCE check the rights over the lock that the value names. -/
def mbxWrite (s : State) (d : Desc) (acc : Acc) (t o : Nat) (v : Word) : State × Done :=
  let a := ta t (0x520000 + o)
  if o < 0x1000 then
    let m := t * 32 + o / 0x80
    match o % 0x80 with
    | 0x04 =>
      if [0, 10, 20].all fun lo => srcFieldOk s (fnOfMbx s m) t (fld v lo 10) then (plainWrite s d a v, .ok) else (s, .refused)
    | 0x10 => mbxSend s acc m v false
    | 0x14 => mbxSend s acc m v true
    | 0x18 => (mbxAck s m v, .ok)
    | 0x1C => (if bit v 0 then mbxReset s m else s, .ok)
    | _ => (plainWrite s d a v, .ok)
  else
    let n := t * 64 + fld v 0 6
    if o = 0x1100 then
      if allows s acc t (lockOwner s n) rSWHD true then (lockRelease s acc n, .ok) else (s, .refused)
    else if o = 0x1104 then
      if acc.kind == 2 && dbgHolds s t (lockOwner s n) 2 then (setLock s n 0, .ok) else (s, .refused)
    else (s, .ok)

end Sys2Proof.Machine
end

