-- ==== Sys2Proof/Machine/Faults.lean ====
section
/-! DEFINITION. The fault unit below the bus (14): FLT_ registers, FAULT_N and GVX_LOCKUP, lost blocks. -/
namespace Sys2Proof.Machine

/-- TMR_DSTAT.SYNC of tile `t` (13 R477). -/
def syncBit (s : State) (t : Nat) : Bool := bit (rg s (ta t 0x55F014)) 7

/-- FLT_STAT bits 7:1 of tile `t` (R516). -/
def fltConds (s : State) (t : Nat) : Word :=
  (rg s (ta t 0x580000) &&& 0x90) |||
  fields [(6, 1, (anyLocked s t).toNat), (5, 1, (anyRetired s t).toNat), (3, 1, ((getTile s t).sync.once && !syncBit s t && t != 0).toNat),
          (2, 1, ((List.range 4).any fun k => decide ((getLink s (t * 4 + k)).st = .failed)).toNat),
          (1, 1, (bit (rg s (ta t 0x55F014)) 0).toNat)]

/-- Tile `t` asserts FAULT_N (R513). -/
def faultN (s : State) (t : Nat) : Bool := bit (rg s (ta t 0x580000)) 15 || decide (fltConds s t ≠ 0)

/-- FLT_STAT (R516). -/
def fltStat (s : State) (t : Nat) : Word :=
  (rg s (ta t 0x580000) &&& 0x8000) ||| fltConds s t ||| fields [(0, 1, (faultN s t).toNat)]

/-- Tile `t` asserts GVX_LOCKUP (R514). -/
def gvxLockup (s : State) (t : Nat) : Bool := anyLocked s t

/-- The cluster's FAULT_N and GVX_LOCKUP pins (01 R28). -/
def clusterFaultN (s : State) : Bool := (tilesOf s).any (faultN s)
def clusterLockup (s : State) : Bool := (tilesOf s).any (gvxLockup s)

/-- Key of a storage block in `State.badBlk`: the tile and its place in the scrub's sequence (R495). -/
def badKey (t pos : Nat) : Nat := t * 2 ^ 20 + pos

/-! ## Tag groups (04 R151) -/

/-- The block at a place of tile `t` fails its CRC. -/
def isBad (s : State) (t pos : Nat) : Bool := s.badBlk.contains (badKey t pos)

/-- The block at a place holds a correct CRC again. -/
def markGood (s : State) (t pos : Nat) : State := { s with badBlk := s.badBlk.filter fun k => k != badKey t pos }

/-- Place in the scrub's sequence of the first tag group (14 R495). -/
def tagPos : Nat := 105832

/-- The rebuild of tag group `g` of tile `t` is complete (04 R151): counted in FLT_CNT.TAGREB. -/
def groupRebuilt (s : State) (t g : Nat) : State :=
  if (getTile s t).rebuild.contains g then
    fltCount (modTile s t fun x => { x with rebuild := x.rebuild.filter (· != g) }) t 24 8
  else s

/-- The tag group of a buffer access (04 R151): one under rebuild is waited for; one whose CRC fails refuses the access, is rebuilt, and
leaves a record. -/
def tagReady (s : State) (addr : Nat) : State × Bool :=
  let t := addr / 0x1000000
  let g := addr % 0x1000000 / 4096
  let s := groupRebuilt s t g
  if isBad s t (tagPos + g) then
    (writeFault (modTile (markGood s t (tagPos + g)) t fun x => { x with rebuild := x.rebuild ++ [g] }) t
      { outcome := 0, cls := 0x0A, unit := 0x06, addr := ta t (g * 4096) }, false)
  else (s, true)

/-! ## Lost blocks -/

/-- Buffer block `b` of tile `t` is zeroed and lost (R500, R501): the table, the records, source 0x3C6 when the table is full. -/
def loseBlock (s : State) (t b : Nat) : State :=
  let p := (granTag s t (b / 4)).1
  let s := { s with mem := eraseBytes s.mem (ta t (b * 64)) 64, badBlk := s.badBlk.filter fun k => k != badKey t b }
  let x := getTile s t
  let free := (List.range 32).find? fun i => (sget none x.lost i).isNone
  let rec8 : FaultRec := { outcome := 2, cls := 0x08, parcel := p, unit := 0x04, addr := ta t (b * 64), ack := true }
  if isLost s (ta t (b * 64)) then writeFault s t rec8
  else match free with
  | some i =>
    writeFault (setTile s t { x with lost := sput none x.lost i (some (b, BitVec.ofNat 4 p)) }) t rec8
  | none =>
    let s := writeFault s t rec8
    let s := writeFault s t { outcome := 2, cls := 0x14, unit := 0x04, ack := true }
    raiseEdge s t 0x3C6

/-- Rights and codes of the fault registers (R516). -/
def fltDesc (o : Nat) : Option Desc :=
  let tw : Desc := { rd := rKHD }
  if o = 0 then some { tw with wr := rKHD, w1c := 0x8000 }
  else if o = 8 then some tw
  else if o = 0xC then some { rd := rAll, wr := rAll }
  else if o = 0x10 then some { tw with rc := msk 0 32 }
  else if o = 0x14 then some tw
  else if 0x100 ≤ o && o < 0x200 && o % 4 = 0 then some tw
  else if 0x400 ≤ o && o < 0x500 && o % 4 = 0 then
    let p := (o - 0x400) / 16
    let r : Rt := { rSHD with k := p == 0 }
    some { own := p, rd := r, wr := if o % 16 = 0 then r else rNone }
  else if 0x800 ≤ o && o < 0x880 && o % 4 = 0 then
    some { rd := rAll }
  else none

/-- Reads of the fault registers. -/
def fltRead (s : State) (d : Desc) (acc : Acc) (t o : Nat) : State × Word :=
  if o = 0 then (s, fltStat s t)
  else if o = 0xC then (s, 0)
  else if 0x800 ≤ o then
    match sget none (getTile s t).lost ((o - 0x800) / 4) with
    | some (b, p) =>
      (s, if allows s acc t p.toNat { rSHD with k := p == 0 } false
          then fields [(31, 1, 1), (22, 4, p.toNat), (6, 16, b)] else 0)
    | none => (s, 0)
  else plainRead s d acc (ta t (0x580000 + o))

/-- FLT_Pp_W0.VALID cleared: LOST clears and the next record is admitted (R510). -/
def clearFltP (s : State) (t p : Nat) : State :=
  let b := ta t (0x580400 + p * 16)
  if bit (rg s b) 31 then modRg (modRg s b fun w => setBit w 31 false) (b + 4) fun w => setFld w 8 8 0 else s

/-- A write of FLT_LOSTCLR (R501): by the rights over the block's granule. -/
def lostClear (s : State) (acc : Acc) (t : Nat) (v : Word) : State × Done :=
  let b := fld v 6 16
  let p := (granTag s t (b / 4)).1
  if allows s acc t p { rSHD with k := p == 0 } true then (unlose s t b, .ok) else (s, .refused)

/-- Writes of the fault registers. -/
def fltWrite (s : State) (d : Desc) (acc : Acc) (t o : Nat) (v : Word) : State × Done :=
  if o = 0xC then lostClear s acc t v
  else if 0x400 ≤ o && o < 0x500 then (if bit v 31 then clearFltP s t ((o - 0x400) / 16) else s, .ok)
  else (plainWrite s d (ta t (0x580000 + o)) v, .ok)

end Sys2Proof.Machine
end

