-- ==== Sys2Proof/Machine/PortBase.lean ====
section
/-! DEFINITION. Frame ports (11) below the frame commands: counters, rings, records, gap notices, lost blocks, transmit queues. -/
namespace Sys2Proof.Machine

/-- Cluster address of a register of port `p`. -/
def pa (p off : Nat) : Nat := ta (p / 8) (0x530000 + p % 8 * 0x800 + off)

/-- A live register of port `p`. -/
def pr (s : State) (p off : Nat) : Word := rg s (pa p off)

/-- The parcel that owns port `p` (R395). -/
def portParcel (s : State) (p : Nat) : Nat := ownerOf s (fnOfPort s p)

/-- The port's interface is active (R401) and its domain is powered. -/
def portOn (s : State) (p : Nat) : Bool :=
  ((fnOfPort s p).map fun f => (getFn s f).everOn).getD false && powered s (p / 8) domPORT

/-- Statistics counter `i` adds `k`; a change of bit 31 sets MAC_CNTHR and raises STSRC (R425, R426). -/
def bumpCnt (s : State) (p i k : Nat) : State :=
  let a := pa p (0x400 + i * 4)
  let old := rg s a
  let new := old + BitVec.ofNat 32 k
  let s := setRg s a new
  if old.msb = new.msb then s
  else raiseField (modRg s (pa p 0x308) fun w => setBit w i true) (p / 8) (0x530000 + p % 8 * 0x800 + 0x30) 10

/-- Raises a source field of port `p`. -/
def raisePort (s : State) (p off lo : Nat) : State := raiseField s (p / 8) (0x530000 + p % 8 * 0x800 + off) lo

/-! ## Rings (R405 to R411) -/

/-- Address of register `off` of flow `f` of port `p`. -/
def flowOff (f off : Nat) : Nat := 0x100 + f * 0x20 + off
/-- Flow table key. -/
def flowKey (p f : Nat) : Nat := p * 8 + f
/-- MAC_FLOWf_CFG.EN. -/
def flowEn (s : State) (p f : Nat) : Bool := bit (pr s p (flowOff f 0)) 31
/-- First granule and number of granules of the data ring. -/
def dFirst (s : State) (p f : Nat) : Nat := fld (pr s p (flowOff f 4)) 18 14
def dCount (s : State) (p f : Nat) : Nat := fld (pr s p (flowOff f 4)) 0 15
/-- First granule and number of granules of the record ring. -/
def rFirst (s : State) (p f : Nat) : Nat := fld (pr s p (flowOff f 8)) 18 14
def rCount (s : State) (p f : Nat) : Nat := fld (pr s p (flowOff f 8)) 0 10

/-- Granules held. -/
def Flow.used (x : Flow) : Nat := x.recs.foldl (fun n h => n + h.count + h.skip) 0
/-- Unconsumed records. -/
def Flow.held (x : Flow) : Nat := (x.prod - x.cons).toNat
/-- SEQ of the record at distance `i` from CONS. -/
def Flow.seqOf (x : Flow) (i : Nat) : Word := x.seq - BitVec.ofNat 32 (x.recs.length - i)

/-- Free data granules and free record slots. -/
def freeGran (s : State) (p f : Nat) : Nat := dCount s p f - (getFlow s (flowKey p f)).used
def freeSlots (s : State) (p f : Nat) : Nat := 8 * rCount s p f - (getFlow s (flowKey p f)).held

/-- Flow `f` is low (R411); of a flow that is not enabled nothing is asked (notes/assumptions/14.md). -/
def flowLow (s : State) (p f : Nat) : Bool :=
  flowEn s p f && (decide (freeGran s p f < fld (pr s p (flowOff f 0)) 10 6) || decide (freeSlots s p f < 4))

/-- Room for a frame of up to MAXLEN bytes (R405): the first granule (counted from FIRST) and the granules skipped at the end. -/
def ringRoom (s : State) (p f : Nat) : Option (Nat × Nat) :=
  let x := getFlow s (flowKey p f)
  let need := (fld (pr s p 0x18) 0 14 + 255) / 256
  let n := dCount s p f
  if freeSlots s p f = 0 || need = 0 then none
  else if x.next + need ≤ n then (if need ≤ freeGran s p f then some (x.next, 0) else none)
  else if (x.used = 0 && decide (need ≤ n)) || decide (n - x.next + need ≤ freeGran s p f) then some (0, n - x.next) else none

/-- Tile offset of the record at index `idx`. -/
def recOff (s : State) (p f idx : Nat) : Nat := rFirst s p f * 256 + idx % (8 * rCount s p f) * 32

/-- The bytes of a receive record (R409). -/
def recBytes (len f flags tci et data : Nat) (seq : Word) (ns : DWord) (frac : BitVec 16) (pcp p : Nat) : List Byte :=
  leBytes 2 len ++ leBytes 1 f ++ leBytes 1 flags ++ leBytes 2 tci ++ leBytes 2 et ++ leBytes 4 data ++ leBytes 4 seq.toNat ++
  leBytes 8 ns.toNat ++ leBytes 2 frac.toNat ++ leBytes 1 pcp ++ leBytes 1 p ++ leBytes 4 0

/-- A hardware write into buffer memory of tile `t`: every 64-byte block that it covers whole leaves the lost-block table and
holds a correct CRC again (14 R501). -/
def hwPut (s : State) (t off : Nat) (bs : List Byte) : State :=
  let s := memWriteBytes s (ta t off) bs
  let b0 := (off + 63) / 64
  let s := (span b0 ((off + bs.length) / 64 - b0)).foldl (fun s b => unlose { s with badBlk := s.badBlk.filter fun k => k != badKey t b } t b) s
  countTile s t 0x41 (granTag s t (off / 256)).1

/-- May port `p` write or read the granule at tile offset `off` (04 R149)? -/
def portMay (s : State) (p off : Nat) : Bool :=
  decide (off < 0x400000) && (granTag s (p / 8) (off / 256)).1 == portParcel s p

/-- The same for a transfer: a tag group whose CRC fails refuses it, and is rebuilt (04 R151). -/
def portTag (s : State) (p off : Nat) : State × Bool :=
  if off < 0x400000 then
    let g := tagReady s (ta (p / 8) off)
    (g.1, g.2 && portMay g.1 p off)
  else (s, false)

/-- Every granule of a list, by its tile offset. -/
def portTags (s : State) (p : Nat) (l : List Nat) : State × Bool :=
  l.foldl (fun (r : State × Bool) off => let g := portTag r.1 p off; (g.1, r.2 && g.2)) (s, true)

/-- Writes a record by `put` and raises the flow's source (R406). -/
def putRecordBy (put : State → Nat → Nat → List Byte → State) (s : State) (p f idx : Nat) (bs : List Byte) : State :=
  let off := recOff s p f idx
  let g := portTag s p off
  let s := if g.2 then put g.1 (p / 8) off bs else countDeny g.1 (p / 8) (portParcel s p)
  raisePort s p (flowOff f 0) 0

/-- The gap notice of the record that holds granule `gran` (R503). -/
def gapBytes (s : State) (p f gran : Nat) (seq : Word) : List Byte :=
  recBytes 0 f 4 0 0 ((dFirst s p f + gran) * 256) seq 0 0 0 p

/-- The fault record beside a gap notice (R504). -/
def gapFault (s : State) (p f idx cls outcome : Nat) : State :=
  writeFault s (p / 8) { outcome, cls, parcel := portParcel s p, unit := 0x08, inst := p % 8, detail := idx % 256, addr := f,
                         ack := cls == 0x08 }

/-- The record at distance `i` from CONS is rewritten as a gap notice for a lost block (R503, R504). -/
def gapRewrite (s : State) (p f i : Nat) : State :=
  let x := getFlow s (flowKey p f)
  match x.recs[i]? with
  | some h =>
    let idx := (x.cons + BitVec.ofNat 16 i).toNat
    gapFault (putRecordBy hwPut s p f idx (gapBytes s p f h.gran (x.seqOf i))) p f idx 0x08 2
  | none => s

/-- Does block `b` of the port's tile hold data or the record of the record at distance `i` from CONS? -/
def recHit (s : State) (p f b i : Nat) (h : Held) : Bool :=
  let d := (dFirst s p f + h.gran) * 4
  let r := recOff s p f ((getFlow s (flowKey p f)).cons + BitVec.ofNat 16 i).toNat
  (decide (d ≤ b) && decide (b < d + h.count * 4)) || r / 64 == b

/-- A buffer block is lost (14 R500, R503): zeroed, entered, and a gap notice for every unconsumed record that it touches. -/
def bufferLost (s : State) (t b : Nat) : State :=
  let s := loseBlock s t b
  (List.range 8).foldl (fun s i =>
    let p := t * 8 + i
    if portOn s p then
      (List.range 8).foldl (fun s f =>
        (getFlow s (flowKey p f)).recs.zipIdx.foldl (fun s (x : Held × Nat) =>
          if recHit s p f b x.2 x.1 then gapRewrite s p f x.2 else s) s) s
    else s) s

/-- The blocks of buffer memory that `n` bytes at cluster address `a` touch and whose CRC does not hold are found (14 R500). -/
def touchMem (s : State) (a n : Nat) : State :=
  (span (blockOf a) ((a % 64 + n + 63) / 64)).foldl (fun s b =>
    if s.badBlk.contains (badKey (a / 0x1000000) b) then bufferLost s (a / 0x1000000) b else s) s

/-- A hardware write: a block that it covers in part is checked first (14 R493). -/
def hwWrite (s : State) (t off : Nat) (bs : List Byte) : State :=
  let e := off + bs.length
  let s := if off % 64 = 0 then s else touchMem s (ta t off) 1
  let s := if e % 64 = 0 then s else touchMem s (ta t (e - 1)) 1
  hwPut s t off bs

/-- Writes a record and raises the flow's source (R406). -/
def putRecord (s : State) (p f idx : Nat) (bs : List Byte) : State := putRecordBy hwWrite s p f idx bs

/-- A new record at PROD: `count` granules from `gran`, and `skip` before it, are held with it (R405, R406). -/
def appendRecord (s : State) (p f gran count skip : Nat) (bs : Word → List Byte) : State :=
  let k := flowKey p f
  let x := getFlow s k
  let s := setFlow s k { x with prod := x.prod + 1, seq := x.seq + 1, next := gran + count, recs := x.recs ++ [{ gran, count, skip }] }
  putRecord s p f x.prod.toNat (bs x.seq)

/-- An admitted frame that a fault dropped: a gap notice at PROD (R503). -/
def gapInstead (s : State) (p f gran skip len cls outcome : Nat) : State :=
  let n := (len + 255) / 256
  let idx := (getFlow s (flowKey p f)).prod.toNat
  let s := appendRecord s p f gran n skip fun seq => gapBytes s p f gran seq
  gapFault s p f idx cls outcome

/-- Does any block that `n` bytes at `a` touch stand in the lost-block table? -/
def anyLost (s : State) (a n : Nat) : Bool := (List.range ((a % 64 + n + 63) / 64)).any fun i => isLost s (a + i * 64)

/-! ## Frames -/

/-- The tag of a frame: TCI where it carries TPID 0x8100 (R402). -/
def frameTci (bs : List Byte) : Option Nat :=
  if beVal ((bs.drop 12).take 2) = 0x8100 then some (beVal ((bs.drop 14).take 2)) else none

/-- The type after any tag. -/
def frameType (bs : List Byte) : Nat := if (frameTci bs).isSome then beVal ((bs.drop 16).take 2) else beVal ((bs.drop 12).take 2)

/-- An untagged frame of type 0x8808 (R402, test 5). -/
def isControl (bs : List Byte) : Bool := (frameTci bs).isNone && frameType bs == 0x8808

/-- The byte time at a speed code, ns (12 R437), and a pause quantum (R419). -/
def byteNs (sp : BitVec 2) : Nat := if sp = 0 then 800 else if sp = 1 then 80 else 8
def quantumNs (sp : BitVec 2) : Nat := byteNs sp * 64

/-- The station address. -/
def stationOf (s : State) (p : Nat) : List Byte := leBytes 4 (pr s p 0x10).toNat ++ leBytes 2 (pr s p 0x14).toNat

/-- Priority of a frame (R404). -/
def framePcp (s : State) (p : Nat) (bs : List Byte) : Nat :=
  match frameTci bs with | some t => t / 8192 | none => fld (pr s p 0x18) 27 3

/-- Rule `k` matches (R404). -/
def ruleHit (s : State) (p : Nat) (bs : List Byte) (k : Nat) : Bool :=
  let a := pr s p (0x40 + k * 8); let b := pr s p (0x44 + k * 8)
  let tci := (frameTci bs).getD 0
  bit a 31 && flowEn s p (fld a 16 3) &&
  (!bit a 30 || frameType bs == fld a 0 16) &&
  (!(bit a 27 || bit a 29 || bit a 28) || (frameTci bs).isSome) &&
  (!bit a 29 || tci % 4096 == fld b 0 12) && (!bit a 28 || framePcp s p bs == fld b 12 3)

/-- The flow that a frame falls to (R404). -/
def flowFor (s : State) (p : Nat) (bs : List Byte) : Option Nat :=
  match (List.range 16).find? (ruleHit s p bs) with
  | some k => some (fld (pr s p (0x40 + k * 8)) 16 3)
  | none =>
    let c := pr s p 0x18
    if bit c 26 && flowEn s p (fld c 23 3) then some (fld c 23 3) else none

/-- The address filter (R402, test 7). -/
def addrOk (s : State) (p : Nat) (bs : List Byte) : Bool :=
  let c := pr s p 0x18
  let da := bs.take 6
  bit c 19 || da == stationOf s p || (if da == List.replicate 6 0xFF then bit c 20 else (bs.headD 0).getLsbD 0 && bit c 21)

/-! ## Transmit queues (R412 to R418) -/

/-- Queue table key. -/
def txKey (p q : Nat) : Nat := p * 8 + q

/-- Queue `q` is paused (R419). -/
def paused (s : State) (p q : Nat) : Bool :=
  match (getTxQ s (txKey p q)).pausedTo with | some x => !atOrAfter (now s (p / 8)) x | none => false

/-- A retirement advances DONE and raises TXSRC where NOTE is 1 (R416). -/
def retired (s : State) (p q : Nat) (e : TxEntry) : State :=
  let s := modTxQ s (txKey p q) fun x => { x with done := x.done + 1 }
  if e.note then raisePort s p 0x34 0 else s

/-- Every queued entry of a port is retired into TX_DISC (R417). -/
def retireAll (s : State) (p : Nat) : State :=
  (List.range 8).foldl (fun s q =>
    let es := (getTxQ s (txKey p q)).entries
    let s := modTxQ s (txKey p q) fun x => { x with entries := [] }
    es.foldl (fun s e => retired (bumpCnt s p 30 1) p q e) s) s

/-- Queues of a port hold no entry, and none is being sent (03 R116); a PAUSE or PFC frame of the port itself is none. -/
def txEmpty (s : State) (p : Nat) : Bool :=
  (match (getPort s p).tx with | some x => x.q.isNone | none => true) && (List.range 8).all fun q => (getTxQ s (txKey p q)).entries.isEmpty

/-- The entry that a post of MAC_TXPOST_LO `lo` and MAC_TXPOST_HI `hi` makes. -/
def postEntry (lo hi : Word) : TxEntry :=
  { addr := BitVec.ofNat 22 (fld lo 0 22), tagi := bit hi 28, tsreq := bit hi 27, note := bit hi 26, len := fld hi 0 14 }

/-- The queue that a post names is full (R412). -/
def postFull (s : State) (p : Nat) (hi : Word) : Bool :=
  (getPort s p).up && decide (16 ≤ (getTxQ s (txKey p (fld hi 29 3))).entries.length)

/-- A post (R412, R413, R417): queued; or retired at once while the link is down; or turned away by a full queue, where a post
that a flit brought counts in TX_DISC. -/
def doPost (s : State) (p : Nat) (lo hi : Word) (flit : Bool) : State × Done :=
  let q := fld hi 29 3
  let e := postEntry lo hi
  if !(getPort s p).up then (retired (bumpCnt s p 30 1) p q e, .ok)
  else if postFull s p hi then
    let s := modRg s (pa p 8) fun w => setBit w 3 true
    (if flit then bumpCnt s p 30 1 else s, .full)
  else (modTxQ s (txKey p q) fun x => { x with entries := x.entries ++ [e] }, .ok)

end Sys2Proof.Machine
end

