-- ==== Sys2Proof/Machine/Schuss.lean ====
section
/-! DEFINITION. Fly-through pairs (12): window, chunks, late actions, what SCHR and SCHW do, their registers. -/
namespace Sys2Proof.Machine

/-- Cluster address of a register of pair `k`. -/
def ka (k off : Nat) : Nat := ta (k / 8) (0x502000 + k % 8 * 0x80 + off)

/-- The pair's egress port (R431), live. -/
def egressOf (s : State) (k : Nat) : Nat := k / 8 * 8 + fld (rg s (ka k 0)) 8 3

/-- D of R437, live. -/
def depthOf (s : State) (k : Nat) : Nat := 24 + 8 * fld (rg s (ka k 0)) 4 3

/-- The pair takes frames (R436, R455). -/
def pairOn (s : State) (k : Nat) : Bool :=
  ((fnOfPair s k).map fun f => (getFn s f).everOn).getD false && powered s (k / 8) domPORT && !(getPair s k).asleep

/-- Both links of the pair are up at the same speed (R440, R454). -/
def fwdOk (s : State) (k : Nat) : Bool :=
  let i := getPort s k; let o := getPort s (egressOf s k)
  i.up && o.up && i.speed == o.speed

/-- Chunks of a frame (R437). -/
def PairFrame.chunks (f : PairFrame) : Nat := (f.bytes.length + 15) / 16

/-- When the frame's last byte, and its first FCS byte, have their times on the egress port (R438, R449). -/
def PairFrame.over (f : PairFrame) : DWord := f.dep + BitVec.ofNat 64 (f.bytes.length * f.bt)
def PairFrame.fcsAt (f : PairFrame) : DWord := f.dep + BitVec.ofNat 64 ((f.bytes.length - 4) * f.bt)

/-- The frame is still to be sent or on the wire at time `n`. -/
def PairFrame.onWire (f : PairFrame) (n : DWord) : Bool := f.fwd && !f.txDone && !(f.started && atOrAfter n f.over)

/-- When chunk `j` of the frame is released (R437). -/
def PairFrame.dueAt (f : PairFrame) (j : Nat) : DWord :=
  let n := min 16 (f.bytes.length - 16 * j)
  f.doneAt.getD j 0 + BitVec.ofNat 64 ((f.d + 16 - n) * f.bt)

/-- The pair holds, receives or sends a frame (R439, R454). -/
def inFrame (s : State) (k : Nat) : Bool := (getPair s k).frames.any fun f => !f.counted || f.onWire (now s (k / 8))

/-- A pair's frame keeps port `p` from starting frames of its own (R439). -/
def egressBusy (s : State) (p : Nat) : Bool :=
  (span (p / 8 * 8) 8).any fun k => pairOn s k && egressOf s k == p && inFrame s k

/-- Counter `i` of pair `k` adds `n` (R452). -/
def bumpPair (s : State) (k i n : Nat) : State :=
  if n = 0 then s else
  let old := rg s (ka k (0x40 + i * 4))
  let new := old + BitVec.ofNat 32 n
  let s := setRg s (ka k (0x40 + i * 4)) new
  if old.msb = new.msb then s
  else raiseField (modRg s (ka k 0x14) fun w => setBit w i true) (k / 8) (0x502000 + k % 8 * 0x80 + 0xC) 20

/-- Frame `i` of pair `k` changed. -/
def modFrame (s : State) (k i : Nat) (g : PairFrame → PairFrame) : State :=
  modPair s k fun x => match x.frames[i]? with | some f => { x with frames := x.frames.set i (g f) } | none => x

/-- The bytes that go out for a frame: those fixed at release, and its new FCS (R450). -/
def PairFrame.wire (f : PairFrame) : List Byte :=
  withFcs (f.out.take (f.bytes.length - 4)) (!(f.bad || f.inval || f.faulted))

/-- The counters of a frame (R452): all released and received. -/
def countFrame (s : State) (k : Nat) (f : PairFrame) : State :=
  let s := if f.owed then bumpPair s k 0 1 else bumpPair s k 1 1
  let s := bumpPair s k 2 f.late.toNat
  let s := bumpPair s k 3 f.lateCh
  let s := bumpPair s k 4 f.lateWr
  let s := bumpPair s k 5 f.noFwd.toNat
  let s := bumpPair s k 6 f.bad.toNat
  let s := bumpPair s k 7 (f.inval && f.fwd).toNat
  if f.noFwd || f.bad then
    raiseField (modRg s (ka k 0x10) fun w => setBit w 7 true) (k / 8) (0x502000 + k % 8 * 0x80 + 0xC) 10
  else s

/-- A forwarded frame counts at the egress port (R452, 11 R425), and is its output. -/
def countSent (s : State) (k : Nat) (f : PairFrame) : State :=
  let p := egressOf s k
  let s := bumpCnt (bumpCnt s p 26 1) p 27 f.bytes.length
  modPort s p fun x => { x with sent := f.wire }

/-- Frame `i` of pair `k` counted, with its last byte released, and sent, with its last byte on the wire, as far as it has come. -/
def settleOne (s : State) (k i : Nat) : State :=
  match (getPair s k).frames[i]? with
  | none => s
  | some f =>
    let fin := decide (f.chunks ≤ f.released) && f.ended
    let s := if fin && !f.counted then modFrame (countFrame s k f) k i fun f => { f with counted := true } else s
    if fin && f.fwd && f.started && !f.txDone && atOrAfter (now s (k / 8)) f.over then modFrame (countSent s k f) k i fun f => { f with txDone := true } else s

/-- Every frame of the pair settled; those with which nothing more can happen leave. -/
def settle (s : State) (k : Nat) : State :=
  let s := (List.range (getPair s k).frames.length).foldl (fun s i => settleOne s k i) s
  modPair s k fun x => { x with frames := x.frames.filter fun f => !(f.counted && (!f.fwd || f.txDone) && (!f.served || f.closed)) }

/-- The frame becomes late (R447 to R449): LATESRC, the LATE bit, and the late action. -/
def makeLate (s : State) (k i : Nat) : State :=
  match (getPair s k).frames[i]? with
  | none => s
  | some f =>
    if f.late || !f.owed then s
    else
      let cfg := rg s (ka k 0); let lt := rg s (ka k 4)
      let loff := fld lt 0 14
      let len := f.bytes.length
      let gone := f.started && atOrAfter (now s (k / 8)) f.fcsAt
      let inval := !gone && (fld cfg 0 2 == 2 || (fld cfg 0 2 == 1 && !(decide (loff + 4 < len) && decide (f.released ≤ loff / 16))))
      let flagOk := decide (loff + 4 < len) && decide (f.released ≤ loff / 16)
      let s := modFrame s k i fun f => { f with
        late := true,
        flag := !gone && fld cfg 0 2 == 1 && flagOk,
        inval }
      let s := if f.counted then bumpPair (bumpPair s k 2 1) k 7 (inval && f.fwd).toNat else s
      raiseField (modRg s (ka k 0x10) fun w => setBit w 6 true) (k / 8) (0x502000 + k % 8 * 0x80 + 0xC) 0

/-! ## Frames -/

/-- When the last frame on port `p` ends: of its own transmit side, or of the pair that feeds it; 0 where there was none. -/
def lastOn (s : State) (k p : Nat) : DWord :=
  let a := (getPort s p).busyTo; let b := (getPair s k).busyTo
  if a = 0 then b else if b = 0 || atOrAfter a b then a else b

/-- A frame starts at the ingress port (R438 to R441, R453): `ns` is the Datum of its first byte, without RXLAT. -/
def pairStart (s : State) (k : Nat) (bytes : List Byte) (ns : DWord) : State :=
  let s := settle s k
  let p := egressOf s k
  let b := byteNs (getPort s k).speed
  let maxlen := fld (pr s k 0x18) 0 14
  let ctl := isControl bytes
  let base := ns + BitVec.ofNat 64 ((depthOf s k + 20) * b)
  let earliest := lastOn s k p + BitVec.ofNat 64 (16 * b)
  let delta := if lastOn s k p = 0 || atOrAfter base earliest then 0 else (earliest - base).toNat
  let can := fwdOk s k && decide (delta ≤ 8 * b)
  let dep := base + BitVec.ofNat 64 delta
  let c? := ctxOfPair s k
  let st := (c?.map fun c => (getCtx s c).st).getD .free
  let owed := isRunning s (fnOfPair s k) &&
    (decide (st = .idle) || decide (st = .ready) || decide (st = .active) || decide (st = .stalled) || decide (st = .halted))
  let fwd := can && !ctl
  let fr : PairFrame :=
    { bytes := bytes.take maxlen, cut := decide (maxlen < bytes.length), at_ := now s (k / 8), d := depthOf s k, dep,
      tsin := ns - (pr s k 0x2C &&& 0xFFFF).setWidth 64,
      tsout := if fwd then dep + (pr s p 0x2C >>> 16).setWidth 64 else 0,
      delta, bt := b, fwd, owed, held := owed, control := ctl, noFwd := !can || ctl, busyBefore := (getPair s k).busyTo }
  let i := (getPair s k).frames.length
  let s := modPair s k fun x => { x with frames := x.frames ++ [fr], busyTo := if fwd then fr.over else x.busyTo }
  match c? with
  | some c => if owed && decide (st = .idle) then reschedOf (startServe s k c i) c else s
  | none => s

/-- A context that waits for a chunk of the pair goes on (05 R190, 12 R442). -/
def wakeChunk (s : State) (k : Nat) : State :=
  match ctxOfPair s k with
  | some c => if (getCtx s c).wait = .chunk && (getPair s k).serving then
      reschedOf (modCtx s c fun x => { x with wait := .none, st := if x.st = .stalled then .ready else x.st }) c else s
  | none => s

/-- The reception of frame `i` is over: every chunk complete; one that ends with an error before its first byte departs is not sent (R451). -/
def closeRx (s : State) (k i : Nat) (bad unsent : Bool) : State :=
  match (getPair s k).frames[i]? with
  | none => s
  | some f =>
    let drop := unsent && f.fwd && !f.started
    let s := modFrame s k i fun f =>
      { f with ended := true, bad := bad, complete := f.chunks, fwd := f.fwd && !drop,
               doneAt := f.doneAt ++ List.replicate (f.chunks - f.complete) (now s (k / 8)) }
    let s := if drop then modPair s k fun x => { x with busyTo := f.busyBefore } else s
    wakeChunk (settle s k) k

/-- The next chunk of the frame in reception is complete (R437). The last chunk of a frame completes at the frame's end, that of one longer
than MAXLEN here: the frame ends there (R451). -/
def chunkDone (s : State) (k : Nat) : State :=
  match (getPair s k).frames.findIdx? fun f => !f.ended with
  | some i =>
    match (getPair s k).frames[i]? with
    | none => s
    | some f =>
      if f.complete + 1 < f.chunks then
        wakeChunk (modFrame s k i fun f => { f with complete := f.complete + 1, doneAt := f.doneAt ++ [now s (k / 8)] }) k
      else if f.cut then closeRx s k i true false
      else s
  | none => s

/-- The frame at the ingress port has ended (R450, R451). -/
def pairEnd (s : State) (k : Nat) (bytes : List Byte) (rxer : Bool) : State :=
  match (getPair s k).frames.findIdx? fun f => !f.ended with
  | none => s
  | some i =>
    let cut := decide (fld (pr s k 0x18) 0 14 < bytes.length)
    let bad := rxer || !fcsOk bytes || decide (bytes.length < 64)
    closeRx s k i (bad || cut) (bad && !cut)

/-- The bytes of chunk `j` as they go out (R447, R448, R450). -/
def PairFrame.fixed (f : PairFrame) (j : Nat) (loff : Nat) (lmask : Byte) : List Byte :=
  let raw := (f.bytes.drop (16 * j)).take 16
  let rep := match f.repl.find? fun r => r.1 == j with
    | some (_, v) => (leBytes 16 v.toNat).take raw.length
    | none => raw
  if f.flag && loff / 16 == j then rep.modify (loff % 16) (· ||| lmask) else rep

/-- The next chunk in the window is released, once its time has come (R437, R441, R444): a held start-of-frame expires with its chunk 0; an
owed frame's chunk that its open or not yet started activation has not read is late, and every chunk of an abandoned frame (R446). -/
def chunkOut (s : State) (k : Nat) : State :=
  match (getPair s k).frames.findIdx? fun f => decide (f.released < f.complete) with
  | none => s
  | some i =>
    match (getPair s k).frames[i]? with
    | none => s
    | some f =>
      let j := f.released
      let late := f.owed && !f.control && (f.abandoned || (!f.closed && decide (f.next ≤ j)))
      if !atOrAfter (now s (k / 8)) (f.dueAt j) then s
      else
      let s := if late then
          makeLate (countTile (modFrame s k i fun f => { f with lateCh := f.lateCh + 1 }) (k / 8) 0x4B (ownerOf s (fnOfPair s k))) k i
        else s
      let lt := rg s (ka k 4)
      let s := modFrame s k i fun f =>
        { f with out := f.out ++ f.fixed j (fld lt 0 14) ((lt >>> 24).setWidth 8), released := j + 1, next := max f.next (j + 1),
                 relAt := if j = 0 then now s (k / 8) else f.relAt,
                 held := f.held && decide (j ≠ 0) }
      settle s k

/-- The frame's first byte starts on the egress port, 4 x b + δ after chunk 0 was released (R438). -/
def egressStart (s : State) (k : Nat) : State :=
  match (getPair s k).frames.findIdx? fun f =>
      f.fwd && !f.started && decide (1 ≤ f.released) && atOrAfter (now s (k / 8)) (f.relAt + BitVec.ofNat 64 (4 * f.bt + f.delta)) with
  | some i => settle (modFrame s k i fun f => { f with started := true }) k
  | none => s

/-- A frame is not sent on: NOFWD, with its counter and ERRSRC if the frame has been counted (R451, R452). -/
def lostFrame (s : State) (k i : Nat) (f : PairFrame) : State :=
  let s := modFrame s k i fun f => { f with fwd := false, noFwd := true }
  if f.counted && !f.noFwd then
    raiseField (modRg (bumpPair s k 5 1) (ka k 0x10) fun w => setBit w 7 true) (k / 8) (0x502000 + k % 8 * 0x80 + 0xC) 10
  else s

/-- The link of port `p` went down: the frames that pairs still send to it are not sent on (R451). -/
def egressLost (s : State) (p : Nat) : State :=
  (span (p / 8 * 8) 8).foldl (fun s k =>
    if egressOf s k == p && pairOn s k then
      let n := now s (k / 8)
      let s := settle s k
      let hit := (getPair s k).frames.any fun f => f.onWire n
      let s := (getPair s k).frames.zipIdx.foldl (fun s (x : PairFrame × Nat) => if x.1.onWire n then lostFrame s k x.2 x.1 else s) s
      settle (if hit then modPair s k fun x => { x with busyTo := n } else s) k
    else s) s

/-- Frames of the pairs that feed port `p`, whose last byte is on the wire, are counted there (R452). -/
def settleInto (s : State) (p : Nat) : State :=
  (span (p / 8 * 8) 8).foldl (fun s k => if egressOf s k == p && pairOn s k then settle s k else s) s

/-- A code error of the pair (14 R497): the frame in the window goes out with the complemented FCS and counts in NOFWD. -/
def pairCodeError (s : State) (k : Nat) : State :=
  modPair s k fun x => { x with frames := x.frames.map fun f => if f.counted then f else { f with faulted := true, noFwd := true } }

/-- A reset of the pair (14 R497): the frame in progress counts in NOFWD and is over. -/
def resetPair (s : State) (k : Nat) : State :=
  let s := modPair s k fun x => { x with busyTo := 0, frames := x.frames.map fun f =>
    if f.counted then f else { f with noFwd := true, fwd := false, abandoned := true, ended := true, complete := f.chunks, released := f.chunks,
                                      held := false } }
  wakeChunk (settle s k) k

/-! ## What SCHR and SCHW do (07 R276, R277; R442 to R446) -/

/-- The frame of the present activation. -/
def servedIdx (s : State) (k : Nat) : Option Nat :=
  if (getPair s k).serving then (getPair s k).frames.findIdx? fun f => f.served && !f.closed else none

/-- SCHR with SEL 0: the datum, or `none` while it waits for a chunk. -/
def schrTake (s : State) (k : Nat) : State × Option Vec :=
  let none' := (modPair s k fun x => { x with cur := none, nochunk := true }, some 0)
  match servedIdx s k with
  | none => none'
  | some i =>
    match (getPair s k).frames[i]? with
    | none => none'
    | some f =>
      if f.abandoned then none'
      else if f.control then (if decide (1 ≤ f.complete) || f.ended then none' else (s, none))
      else
        let j := max f.next f.released
        if f.chunks ≤ j then none'
        else if f.complete ≤ j then (s, none)
        else
          let s := modFrame s k i fun f => { f with next := j + 1 }
          let s := modPair s k fun x => { x with cur := some j, nochunk := false }
          (countTile s (k / 8) 0x4A (ownerOf s (fnOfPair s k)), some (BitVec.ofNat 128 (leVal ((f.bytes.drop (16 * j)).take 16))))

/-- SCHR with SEL 1: the status of the current chunk (07 R277); without a frame NOCHUNK alone (R443). -/
def schrStatus (s : State) (k : Nat) : Word :=
  let x := getPair s k
  match (servedIdx s k).bind fun i => x.frames[i]? with
  | none => fields [(25, 1, 1)]
  | some f =>
    match x.cur with
    | none => fields [(27, 1, f.late.toNat), (25, 1, x.nochunk.toNat)]
    | some j =>
      let last := decide (j + 1 = f.chunks) && f.ended
      fields [(27, 1, f.late.toNat), (26, 1, (last && !f.bad).toNat), (24, 1, last.toNat), (8, 12, j),
              (0, 5, min 16 (f.bytes.length - 16 * j))]

/-- SCHW: whether the replacement of the current chunk was accepted (R444, R445, R449). -/
def schwPut (s : State) (k : Nat) (v : Vec) : State × Bool :=
  match servedIdx s k, (getPair s k).cur with
  | some i, some j =>
    match (getPair s k).frames[i]? with
    | none => (s, false)
    | some f =>
      if f.released ≤ j then (modFrame s k i fun f => { f with repl := (j, v) :: f.repl.filter fun r => r.1 != j }, true)
      else
        let s := if f.counted then bumpPair s k 4 1 else s
        (settle (makeLate (modFrame s k i fun f => { f with lateWr := f.lateWr + 1 }) k i) k, false)
  | _, _ => (s, false)

/-! ## Registers (R433, R454) -/

/-- May CFG_SCHk_CFG hold `v` (R433, R447, R454)? -/
def schCfgOk (s : State) (k : Nat) (v : Word) : Bool :=
  let out := k / 8 * 8 + fld v 8 3
  decide (fld v 4 3 ≤ 5) && decide (fld v 0 2 ≠ 3) &&
  (fnOfPort s out).isSome && fnOfPort s out == fnOfPair s k &&
  (span (k / 8 * 8) 8).all fun j =>
    j == k || (fnOfPair s j).isNone ||
    (!((getPair s j).written && j / 8 * 8 + fld (sg s (ka j 0)) 8 3 == out) && !(pairOn s j && egressOf s j == out))

/-- Rights and codes of a pair's registers. -/
def schDesc (s : State) (t o : Nat) : Option Desc :=
  let k := t * 8 + o / 0x80
  let f? := fnOfPair s k
  let d : Desc := { own := ownerOf s f?, unit := some f?, rd := rSWHD }
  let st : Desc := { d with wr := rSHD, staged := true }
  match o % 0x80 with
  | 0x00 => some { st with rw := msk 8 3 ||| msk 4 3 ||| msk 0 2 }
  | 0x04 => some { st with rw := msk 24 8 ||| msk 0 14 }
  | 0x08 => some { st with rw := msk 2 18 }
  | 0x0C => some { st with rw := msk 0 30 }
  | 0x10 => some { d with wr := rSHD, w1c := msk 6 2, dom := domPORT }
  | 0x14 => some { d with rc := msk 0 8, dom := domPORT }
  | r =>
    if r = 0x18 || r = 0x1C || r = 0x20 || r = 0x24 || (decide (0x40 ≤ r) && decide (r < 0x60) && r % 4 == 0)
    then some { d with dom := domPORT } else none

/-- Reads of a pair's registers. -/
def schRead (s : State) (d : Desc) (acc : Acc) (t o : Nat) : State × Word :=
  let k := t * 8 + o / 0x80
  if o % 0x80 = 0x10 then
    (s, rg s (ka k 0x10) ||| fields [(1, 1, fwdOk s k |>.toNat), (0, 1, inFrame s k |>.toNat)])
  else plainRead s d acc (ta t (0x502000 + o))

/-- Writes of a pair's registers. -/
def schWrite (s : State) (d : Desc) (t o : Nat) (v : Word) : State × Done :=
  let k := t * 8 + o / 0x80
  let a := ta t (0x502000 + o)
  match o % 0x80 with
  | 0x00 =>
    if schCfgOk s k v then (modPair (plainWrite s d a v) k fun x => { x with written := true }, .ok) else (s, .refused)
  | 0x0C =>
    if [0, 10, 20].all fun lo => srcFieldOk s (fnOfPair s k) t (fld v lo 10) then (plainWrite s d a v, .ok) else (s, .refused)
  | _ => (plainWrite s d a v, .ok)

end Sys2Proof.Machine
end

