-- ==== Sys2Proof/Machine/Ports.lean ====
section
/-! DEFINITION. Frame ports (11): reception, transmission, flow control, the link, registers. -/
namespace Sys2Proof.Machine

/-! ## Reception (R402 to R411) -/

/-- The flow, or the drop counter, that a frame falls to by tests 5 to 10 of R402, and the flow whose rate counter it took. -/
def takeIn (s : State) (p : Nat) (bs : List Byte) : State × Option (Nat × Nat × Nat) × Option Nat :=
  if isControl bs then (s, none, none)
  else if !isRunning s (fnOfPort s p) then (s, none, some 23)
  else if !addrOk s p bs then (s, none, some 19)
  else match flowFor s p bs with
    | none => (s, none, some 20)
    | some f =>
      let lim := fld (pr s p (flowOff f 0)) 16 12
      let w := now s (p / 8) >>> 20
      let n := if (getFlow s (flowKey p f)).win = w then (getFlow s (flowKey p f)).rl else 0
      let s := if lim = 0 then s else modFlow s (flowKey p f) fun x => { x with rl := n + 1, win := w }
      if lim ≠ 0 ∧ lim ≤ n then (s, none, some 21)
      else match ringRoom s p f with
        | some (g, skip) => (s, some (f, g, skip), none)
        | none => (s, none, some 22)

/-- The first destination byte of a frame arrives (R402 to R405, R423, 12 R441). -/
def rxStart (s : State) (p : Nat) (bs : List Byte) : State :=
  if !portOn s p || !(getPort s p).up || (getPort s p).rx.isSome then s
  else
    let taken := pairOn s p
    let (s, e) := eventTime s (p / 8)
    let s := if taken then pairStart s p bs (eventNs e) else s
    let (s, flow, drop) := takeIn s p bs
    let ns := eventNs e - (pr s p 0x2C &&& 0xFFFF).setWidth 64
    modPort s p fun x =>
      { x with rx := some { bytes := bs, at_ := now s (p / 8), ns, frac := BitVec.ofNat 16 e, flow, drop, taken } }

/-- The statistics of a good frame (R402, R425). -/
def countGood (s : State) (p : Nat) (bs : List Byte) : State :=
  let n := bs.length
  let s := bumpCnt (bumpCnt s p 0 1) p 1 n
  let da := bs.take 6
  let s := bumpCnt s p (if da == List.replicate 6 0xFF then 4 else if (bs.headD 0).getLsbD 0 then 3 else 2) 1
  let s := bumpCnt s p (if n ≤ 64 then 7 else if n ≤ 127 then 8 else if n ≤ 255 then 9 else if n ≤ 511 then 10
                        else if n ≤ 1023 then 11 else if n ≤ 1518 then 12 else 13) 1
  if (frameTci bs).isSome then bumpCnt s p 6 1 else s

/-- Queue `q` is paused for `d` ns (R419); 0 ends the pause. A queue whose watchdog bit is set ignores it (R421). -/
def pauseQueue (s : State) (p q d : Nat) : State :=
  if bit (pr s p 0x28) (8 + q) then s
  else
    let n := now s (p / 8)
    let was := paused s p q
    modTxQ s (txKey p q) fun x =>
      if d = 0 then { x with pausedTo := none, pausedAt := none }
      else { x with pausedTo := some (n + BitVec.ofNat 64 d), pausedAt := if was then x.pausedAt else some n }

/-- A good PAUSE or PFC frame (R402 test 5, R419). -/
def rxPause (s : State) (p : Nat) (bs : List Byte) : State :=
  let s := bumpCnt s p 5 1
  let fc := pr s p 0x20
  let op := beVal ((bs.drop 14).take 2)
  let dest := bs.take 6
  if !(dest == [0x01, 0x80, 0xC2, 0x00, 0x00, 0x01] || dest == stationOf s p) then s
  else
    let unit := quantumNs (getPort s p).speed
    let time := fun i => beVal ((bs.drop i).take 2) * unit
    if op = 1 then
      if bit fc 31 then (List.range 8).foldl (fun s q => pauseQueue s p q (time 16)) s else s
    else if bit fc 30 then
      let en := beVal ((bs.drop 16).take 2)
      (List.range 8).foldl (fun s q => if en.testBit q then pauseQueue s p q (time (18 + 2 * q)) else s) s
    else s

/-- The bytes of a frame as stored: without its tag where STRIP is 1 (R405). -/
def storedBytes (s : State) (p : Nat) (bs : List Byte) : List Byte :=
  if bit (pr s p 0x18) 22 && (frameTci bs).isSome then bs.take 12 ++ bs.drop 16 else bs

/-- Writes a frame's bytes from tile offset `off`, granule by granule, as far as the tags allow (R402 test 11, 04 R149). -/
def storeFrame (s : State) (p : Nat) : Nat → Nat → List Byte → State
  | 0, _, _ => s
  | n + 1, off, bs =>
    let g := portTag s p off
    let s := if g.2 then hwWrite g.1 (p / 8) off (bs.take 256) else g.1
    storeFrame s p n (off + 256) (bs.drop 256)

/-- The granules that a frame of `n` bytes at `off`, and the record at `r`, touch are all the port's (R402, test 11). -/
def storeOk (s : State) (p off n r : Nat) : State × Bool :=
  portTags s p (r :: (List.range ((n + 255) / 256)).map fun i => off + i * 256)

/-- A good frame that was admitted is stored with its record (R405, R406, R409). -/
def rxStore (s : State) (p : Nat) (r : RxFrame) (f g skip : Nat) : State :=
  let st := storedBytes s p r.bytes
  let off := (dFirst s p f + g) * 256
  let n := (st.length + 255) / 256
  let ok := storeOk s p off st.length (recOff s p f (getFlow s (flowKey p f)).prod.toNat)
  let s := storeFrame ok.1 p n off st
  if !ok.2 then bumpCnt s p 24 1
  else
    let tci := (frameTci r.bytes).getD 0
    let tagged := (frameTci r.bytes).isSome
    let flags := tagged.toNat + 2 * (tagged && bit (pr s p 0x18) 22).toNat
    let s := appendRecord s p f g n skip fun seq =>
      recBytes st.length f flags tci (frameType r.bytes) off seq r.ns r.frac (framePcp s p r.bytes) p
    countTile s (p / 8) 0x48 (portParcel s p)

/-- A frame of the port is longer than `k` x MAXLEN bytes. -/
def longer (s : State) (p k n : Nat) : Bool := decide (k * fld (pr s p 0x18) 0 14 < n)

/-- A good frame's end by tests 5 to 11 (R402, R406): to flow control, to its drop counter, or stored; outside RUNNING nothing is stored
(01 R31, 03 R115). One that a fault dropped has left a gap notice (14 R503). -/
def rxGood (s : State) (p : Nat) (r : RxFrame) : State :=
  let s := countGood s p r.bytes
  if isControl r.bytes then
    let op := beVal ((r.bytes.drop 14).take 2)
    if op = 0x0001 ∨ op = 0x0101 then rxPause s p r.bytes else bumpCnt s p 25 1
  else match r.flow, r.drop with
    | some (f, g, skip), _ =>
      if r.faulted then s else if isRunning s (fnOfPort s p) then rxStore s p r f g skip else bumpCnt s p 23 1
    | none, some i => bumpCnt s p i 1
    | none, none => s

/-- What a frame fails of tests 1 to 4 (R402), as the counter it falls to. -/
def rxBad (s : State) (p : Nat) (bs : List Byte) (rxer : Bool) : Option Nat :=
  if rxer then some 18
  else if longer s p 1 bs.length then some 17
  else if !fcsOk bs then (if bs.length < 64 then some 16 else some 14)
  else if bs.length < 64 then some 15 else none

/-- The frame's end (R402, R403): counted, then dropped or stored. -/
def rxEnd (s : State) (p : Nat) (rxer : Bool) : State :=
  match (getPort s p).rx with
  | none => s
  | some r =>
    let s := modPort s p fun x => { x with rx := none }
    let bs := r.bytes
    let maxlen := fld (pr s p 0x18) 0 14
    let s := if r.taken then pairEnd s p bs rxer else s
    let s := if longer s p 4 bs.length then modRg s (pa p 8) fun w => setBit w 5 true else s
    if r.jab then s
    else if longer s p 4 bs.length then bumpCnt s p 17 1
    else match rxBad s p bs rxer with
    | some i =>
      let s := match r.flow with
        | some (f, g, _) =>
          if isRunning s (fnOfPort s p) && !r.faulted then
            storeFrame s p ((maxlen + 255) / 256) ((dFirst s p f + g) * 256) ((storedBytes s p bs).take maxlen)
          else s
        | none => s
      bumpCnt s p i 1
    | none => rxGood s p r

/-- A reception that has lasted longer than 4 x MAXLEN byte times (R403). -/
def rxJabber (s : State) (p : Nat) : State :=
  match (getPort s p).rx with
  | none => s
  | some r =>
    let lim := 4 * fld (pr s p 0x18) 0 14 * byteNs (getPort s p).speed
    if r.jab || !atOrAfter (now s (p / 8)) (r.at_ + BitVec.ofNat 64 (lim + 1)) then s
    else
      let s := modPort s p fun x => { x with rx := some { r with jab := true } }
      bumpCnt (modRg s (pa p 8) fun w => setBit w 5 true) p 17 1

/-- The link falls, or the interface goes: the frame in reception is taken no further and is counted nowhere (R402; DEDUCED:
notes/assumptions/39.md). A pair of the port has an ingress frame that ends with an error (12 R451). -/
def rxCut (s : State) (p : Nat) : State :=
  match (getPort s p).rx with
  | none => s
  | some r =>
    let s := modPort s p fun x => { x with rx := none }
    if r.taken then pairEnd s p r.bytes true else s

/-- A fault drops the frame in reception (14 R497, R503): a gap notice where it was admitted. -/
def rxFault (s : State) (p cls outcome : Nat) : State :=
  match (getPort s p).rx with
  | none => s
  | some r =>
    if r.faulted then s
    else
      let s := modPort s p fun x => { x with rx := some { r with faulted := true } }
      match r.flow with
      | some (f, g, skip) => gapInstead s p f g skip (min r.bytes.length (fld (pr s p 0x18) 0 14)) cls outcome
      | none => s

/-- A write of MAC_FLOWf_CONS (R407). -/
def flowConsume (s : State) (p f : Nat) (v : Word) : State :=
  let k := flowKey p f
  let x := getFlow s k
  let d := (v.setWidth 16 - x.cons).toNat
  if x.held < d then modRg s (pa p (flowOff f 0xC)) fun w => setBit w 31 true
  else setFlow s k { x with cons := v.setWidth 16, recs := x.recs.drop d }

/-- The rate windows of a tile's flows end, those of an earlier value of Datum bits 63:20 (R411). -/
def rateEnd (s : State) (t : Nat) : State :=
  (List.range 64).foldl (fun s i => modFlow s (t * 64 + i) fun x =>
    if x.win = now s t >>> 20 then x else { x with rl := 0, win := now s t >>> 20 }) s

/-! ## Own pause frames (R420) -/

/-- The priorities to hold paused now (R420). -/
def wantXoff (s : State) (p : Nat) : BitVec 8 :=
  let low := (List.range 8).filter (flowLow s p)
  match fld (pr s p 0x20) 28 2 with
  | 1 => if low.isEmpty then 0 else 0xFF
  | 2 => ofBits 8 (low.map fun f => fld (pr s p (flowOff f 0)) 28 3)
  | _ => 0

/-- The pause frames that hold the port's partner are of another kind than TXMODE now sends (R420). -/
def kindStale (s : State) (p : Nat) : Bool :=
  let x := getPort s p
  decide (x.xoff ≠ 0) && (fld (pr s p 0x20) 28 2 != (if x.xoffPfc then 2 else 1))

/-- A pause frame of the port's own is due (R420). -/
def ownDue (s : State) (p : Nat) : Bool :=
  let x := getPort s p
  portOn s p && x.up && (kindStale s p || wantXoff s p != x.xoff || (decide (x.xoff ≠ 0) && x.refreshAt.isNone))

/-- The bytes of an own PAUSE or PFC frame: the priorities it holds, and those that it releases. -/
def ownBytes (s : State) (p : Nat) (pfc : Bool) (hold release : BitVec 8) : List Byte :=
  let q := fld (pr s p 0x20) 0 16
  let be2 := fun v => (leBytes 2 v).reverse
  let body := if pfc then
      be2 0x0101 ++ be2 (hold ||| release).toNat ++ (List.range 8).flatMap fun i => be2 (if bit hold i then q else 0)
    else be2 0x0001 ++ be2 (if hold = 0 then 0 else q)
  let head := [0x01, 0x80, 0xC2, 0x00, 0x00, 0x01] ++ stationOf s p ++ [0x88, 0x08] ++ body
  withFcs (head ++ List.replicate (60 - head.length) 0) true

/-- The due pause frame starts (R416, R420). -/
def startOwn (s : State) (p : Nat) : State :=
  let x := getPort s p
  let stale := kindStale s p
  let pfc := if stale then x.xoffPfc else fld (pr s p 0x20) 28 2 == 2
  let hold := if stale then 0 else wantXoff s p
  let bs := ownBytes s p pfc hold (x.xoff &&& ~~~hold)
  let n := now s (p / 8)
  let refresh := BitVec.ofNat 64 (fld (pr s p 0x20) 0 16 * quantumNs x.speed / 2)
  modPort s p fun x => { x with tx := some { q := none, ent := none, bytes := bs }, xoff := hold, xoffPfc := pfc,
                                refreshAt := if hold = 0 then none else some (n + refresh),
                                busyTo := n + BitVec.ofNat 64 (bs.length * byteNs x.speed) }

/-- The repeat time of the port's pause frame has come (R420). -/
def refreshDue (s : State) (p : Nat) : State :=
  match (getPort s p).refreshAt with
  | some x => if atOrAfter (now s (p / 8)) x then modPort s p fun y => { y with refreshAt := none } else s
  | none => s

/-! ## Transmission (R414 to R418, R423, R424) -/

/-- The length of an entry is in the range of R414. -/
def lenOk (s : State) (p : Nat) (e : TxEntry) : Bool :=
  let m := fld (pr s p 0x18) 0 14
  decide (14 ≤ e.len) && decide (e.len + (if e.tagi then 8 else 4) ≤ m)

/-- Every granule of an entry's frame passes the tag check (R414). -/
def granOk (s : State) (p : Nat) (e : TxEntry) : State × Bool :=
  let a := e.addr.toNat
  portTags s p ((List.range ((a % 256 + e.len + 255) / 256)).map fun i => (a / 256 + i) * 256)

/-- The frame that an entry sends (R414). -/
def entryBytes (s : State) (p q : Nat) (e : TxEntry) : List Byte :=
  let raw := memBytes s (ta (p / 8) e.addr.toNat) e.len
  let tci := fld (pr s p (0x200 + q * 8)) 0 16
  let body := if e.tagi then raw.take 12 ++ [0x81, 0x00] ++ (leBytes 2 tci).reverse ++ raw.drop 12 else raw
  withFcs (body ++ List.replicate (60 - body.length) 0) true

/-- The oldest entry of the highest queue that is neither empty nor paused (R416). -/
def nextEntry (s : State) (p : Nat) : Option (Nat × TxEntry) :=
  ([7, 6, 5, 4, 3, 2, 1, 0].find? fun q => !(getTxQ s (txKey p q)).entries.isEmpty && !paused s p q).bind fun q =>
    (getTxQ s (txKey p q)).entries.head?.map fun e => (q, e)

/-- The transmit stamp of a frame that starts (R424). -/
def txStamp (s : State) (p q : Nat) : State :=
  let c := pr s p 0x1C
  if !bit c 31 then s
  else
    let x := getPort s p
    let g := fld c 0 14
    let (s, e) := eventTime s (p / 8)
    let ns := eventNs e + (pr s p 0x2C >>> 16).setWidth 64
    let bs := leBytes 8 ns.toNat ++ leBytes 2 (e % 65536) ++ leBytes 1 q ++ leBytes 1 0 ++ leBytes 4 x.tsSeq.toNat
    let tag := portTag s p (g * 256)
    let s := tag.1
    let ok := tag.2 && ((fnOfPort s p).map fun f => granOfFn s f (p / 8) g).getD false
    let s' := if ok then hwWrite s (p / 8) (g * 256 + x.tsSeq.toNat % 16 * 16) bs else countDeny s (p / 8) (portParcel s p)
    let s' := modPort s' p fun x => { x with tsSeq := x.tsSeq + 1 }
    if ok then raisePort s' p 0x34 10 else s'

/-- Removes the head of queue `q`. -/
def popQ (s : State) (p q : Nat) : State := modTxQ s (txKey p q) fun x => { x with entries := x.entries.drop 1 }

/-- Entry `e`, the head of queue `q`, starts. -/
def startEntry (s : State) (p q : Nat) (e : TxEntry) : State :=
  let bs := entryBytes s p q e
  let s := if e.bad then copyMasked s (p / 8) 0x08 (p % 8) (portParcel s p) 0 else s
  let s := countTile s (p / 8) 0x40 (portParcel s p)
  let s := modPort (popQ s p q) p fun x =>
    { x with tx := some { q := some q, ent := some e, bytes := bs },
             busyTo := now s (p / 8) + BitVec.ofNat 64 (bs.length * byteNs x.speed) }
  if e.tsreq then txStamp s p q else s

/-- Entries at the head of the chosen queue that may not be sent are retired (R414, 14 R500); the first that may starts. -/
def startNext : Nat → State → Nat → State
  | 0, s, _ => s
  | n + 1, s, p =>
    match nextEntry s p with
    | none => s
    | some (q, e) =>
      let g := granOk s p e
      if !lenOk s p e then startNext n (retired (bumpCnt (popQ s p q) p 30 1) p q e) p
      else if !g.2 then startNext n (retired (bumpCnt (popQ g.1 p q) p 29 1) p q e) p
      else
        let s := touchMem g.1 (ta (p / 8) e.addr.toNat) e.len
        if anyLost s (ta (p / 8) e.addr.toNat) e.len then startNext n (retired (bumpCnt (popQ s p q) p 30 1) p q e) p
        else startEntry s p q e

/-- A frame boundary of the port (R416, R439). -/
def txStart (s : State) (p : Nat) : State :=
  if !portOn s p || !(getPort s p).up || (getPort s p).tx.isSome || egressBusy s p then s
  else if ownDue s p then startOwn s p
  else startNext 129 s p

/-- The frame that the port sends has ended (R416, R425); one of a pair, at its time (12 R452). -/
def txEnd (s : State) (p : Nat) : State :=
  match (getPort s p).tx with
  | none => settleInto s p
  | some f =>
    let s := modPort s p fun x => { x with tx := none, sent := f.bytes, busyTo := now s (p / 8) }
    let s := bumpCnt (bumpCnt s p 26 1) p 27 f.bytes.length
    match f.q, f.ent with
    | some q, some e => countTile (retired s p q e) (p / 8) 0x49 (portParcel s p)
    | _, _ => bumpCnt s p 28 1

/-- A fault of the transmit side (14 R497): the frame in progress ends with the complement of its FCS; otherwise the entry that
would start next is retired into TX_DISC. -/
def txFault (s : State) (p : Nat) : State :=
  match (getPort s p).tx with
  | some f => modPort s p fun x => { x with tx := some { f with bytes := withFcs (f.bytes.take (f.bytes.length - 4)) false } }
  | none =>
    match nextEntry s p with
    | some (q, e) => retired (bumpCnt (popQ s p q) p 30 1) p q e
    | none => s

/-! ## Pauses of the queues (R419, R421) -/

/-- A received pause has run out. -/
def pauseOver (s : State) (p q : Nat) : State :=
  if paused s p q then s else modTxQ s (txKey p q) fun x => { x with pausedTo := none, pausedAt := none }

/-- The pause watchdog of a queue (R421). -/
def pauseWd (s : State) (p q : Nat) : State :=
  match (getTxQ s (txKey p q)).pausedAt with
  | some a =>
    let lim := max 1 (fld (pr s p 0x24) 0 16) * 100000
    if paused s p q && atOrAfter (now s (p / 8)) (a + BitVec.ofNat 64 lim) then
      let s := modTxQ s (txKey p q) fun x => { x with pausedTo := none, pausedAt := none }
      raisePort (bumpCnt (modRg s (pa p 0x28) fun w => setBit w (8 + q) true) p 31 1) p 0x30 20
    else s
  | none => s

/-! ## The link (R399, R417, R422) -/

/-- The speeds that a row of R398 allows, as a bit map. -/
def speedsOf (iface : Nat) : Nat := match iface with | 0 => 3 | 1 => 3 | 2 => 7 | 3 => 7 | 4 => 4 | _ => 0

/-- The link state and speed that the link source gives (R399). -/
def linkWant (s : State) (p : Nat) : Option (BitVec 2) :=
  let c := pr s p 0
  if !portOn s p then none
  else if fld c 6 2 = 0 then (if bit (pr s p 4) 0 then some (BitVec.ofNat 2 (fld c 4 2)) else none)
  else (getPort s p).report.filter fun sp => (speedsOf (fld c 0 3)).testBit sp.toNat

/-- A link that goes down ends pauses and retires the queues (R417, R422). -/
def linkFell (s : State) (p : Nat) : State :=
  let s := (List.range 8).foldl (fun s q => modTxQ s (txKey p q) fun x => { x with pausedTo := none, pausedAt := none }) s
  let s := modPort s p fun x => { x with xoff := 0, refreshAt := none }
  egressLost (retireAll (rxCut s p) p) p

/-- Pairs of the tile whose two links are up leave the state after a wake (12 R455). -/
def wakePairs (s : State) (t : Nat) : State :=
  (span (t * 8) 8).foldl (fun s k =>
    if (getPair s k).asleep && (getPort s k).up && (getPort s (egressOf s k)).up then modPair s k fun x => { x with asleep := false } else s) s

/-- The link of port `p` follows its source; LNKSRC at each change (R399, R427). -/
def evalLink (s : State) (p : Nat) : State :=
  let x := getPort s p
  match linkWant s p with
  | some sp =>
    if x.up then (if x.speed = sp then s else modPort s p fun x => { x with speed := sp })
    else wakePairs (raisePort (modPort s p fun x => { x with up := true, speed := sp }) p 0x30 0) (p / 8)
  | none =>
    if x.up then raisePort (linkFell (modPort s p fun x => { x with up := false, speed := 0 }) p) p 0x30 0 else s

/-- The PHY reports the link up at full duplex at a speed (R399). -/
def phyUp (s : State) (p : Nat) (sp : BitVec 2) : State := evalLink (modPort s p fun x => { x with report := some sp }) p

/-- The PHY reports the link down: 1 resolved to half duplex, 2 code-group synchronisation lost (R399). -/
def phyDown (s : State) (p : Nat) (cause : BitVec 2) : State :=
  let c := pr s p 0
  let lsrc := fld c 6 2 == 1
  let s := if portOn s p && lsrc && cause = 1 then modRg s (pa p 8) fun w => setBit w 4 true else s
  let s := if portOn s p && cause = 2 && decide (3 ≤ fld c 0 3) then modRg s (pa p 8) fun w => setBit w 6 true else s
  evalLink (modPort s p fun x => { x with report := none }) p

/-- A port reset by a handshake stall (14 R497): it retrains from link down. -/
def resetPort (s : State) (p : Nat) : State :=
  let x := getPort s p
  let s := modPort s p fun x => { x with up := false, speed := 0, report := none }
  if x.up then raisePort (linkFell s p) p 0x30 0 else s

/-- An accepted enable of the port's function (R401, R408, R424): rings and stamps restart; the link is evaluated. -/
def portEnable (s : State) (p : Nat) : State :=
  let s := (List.range 8).foldl (fun s f => setFlow s (flowKey p f) {}) s
  let s := modPort s p fun x =>
    { x with tsSeq := 0, rx := x.rx.map fun r => { r with flow := none, drop := if r.flow.isSome then some 23 else r.drop } }
  wakePairs (evalLink s p) (p / 8)

/-! ## Registers (R429, R430) -/

/-- Rights and codes of a port's registers. -/
def portDesc (s : State) (t o : Nat) : Option Desc :=
  let p := t * 8 + o / 0x800
  let f? := fnOfPort s p
  let r := o % 0x800
  let dat : Desc := { own := ownerOf s f?, unit := some f?, rd := rSWHD, wr := rSWHD, dom := domPORT }
  let ctl : Desc := { own := ownerOf s f?, unit := some f?, rd := rSWHD, wr := rSHD, dom := domPORT }
  let st : Desc := { ctl with staged := true }
  if r = 0x000 then some { st with rw := msk 6 2 ||| msk 4 2 ||| msk 0 3 }
  else if r = 0x004 then some { dat with rw := 1 }
  else if r = 0x008 then some { ctl with w1c := msk 3 4 }
  else if r = 0x010 then some { st with rw := msk 0 32 }
  else if r = 0x014 then some { st with rw := msk 0 16 }
  else if r = 0x018 then some { st with rw := msk 19 11 ||| msk 0 14 }
  else if r = 0x01C then some { st with rw := msk 31 1 ||| msk 0 14 }
  else if r = 0x020 then some { st with rw := msk 28 4 ||| msk 0 16 }
  else if r = 0x024 then some { st with rw := msk 0 16 }
  else if r = 0x028 then some { ctl with w1c := msk 8 8 }
  else if r = 0x02C then some { st with rw := msk 0 32 }
  else if r = 0x030 then some { st with rw := msk 0 30 }
  else if r = 0x034 then some { st with rw := msk 0 20 }
  else if 0x040 ≤ r && r < 0x0C0 then
    (if r % 8 = 0 then some { st with rw := msk 27 5 ||| msk 16 3 ||| msk 0 16 }
     else if r % 8 = 4 then some { st with rw := msk 0 15 } else none)
  else if 0x100 ≤ r && r < 0x200 then
    match r % 0x20 with
    | 0x00 => some { st with rw := msk 0 32 }
    | 0x04 => some { st with rw := msk 18 14 ||| msk 0 15 }
    | 0x08 => some { st with rw := msk 18 14 ||| msk 0 10 }
    | 0x0C => some { ctl with w1c := msk 31 1 }
    | 0x10 => some dat
    | _ => none
  else if 0x200 ≤ r && r < 0x240 then
    (if r % 8 = 0 then some { st with rw := msk 0 16 } else if r % 8 = 4 then some ctl else none)
  else if r = 0x300 || r = 0x304 then some dat
  else if r = 0x308 then some { dat with rc := msk 0 32 }
  else if 0x400 ≤ r && r < 0x480 && r % 4 = 0 then some dat
  else none

/-- Reads of a port's registers. -/
def portRead (s : State) (d : Desc) (acc : Acc) (t o : Nat) : State × Word :=
  let p := t * 8 + o / 0x800
  let r := o % 0x800
  let x := getPort s p
  if r = 0x008 then (s, pr s p 8 ||| fields [(1, 2, x.speed.toNat), (0, 1, x.up.toNat)])
  else if r = 0x028 then
    (s, pr s p 0x28 ||| fields [(24, 8, x.xoff.toNat), (0, 8, (ofBits 8 ((List.range 8).filter (paused s p))).toNat)])
  else if 0x100 ≤ r && r < 0x200 && r % 0x20 = 0x0C then
    let f := (r - 0x100) / 0x20
    (s, pr s p r ||| fields [(30, 1, (flowLow s p f).toNat), (0, 16, (getFlow s (flowKey p f)).prod.toNat)])
  else if 0x100 ≤ r && r < 0x200 && r % 0x20 = 0x10 then (s, (getFlow s (flowKey p ((r - 0x100) / 0x20))).cons.setWidth 32)
  else if 0x200 ≤ r && r < 0x240 && r % 8 = 4 then
    let q := getTxQ s (txKey p ((r - 0x200) / 8))
    (s, fields [(16, 5, q.entries.length), (0, 16, q.done.toNat)])
  else if r = 0x300 || r = 0x304 then (s, 0)
  else plainRead s d acc (pa p r)

/-- Does a staged value break a rule of chapter 11 (R396, R398, R420, R430)? `p` the port, `r` the offset. -/
def portValOk (s : State) (p r : Nat) (v : Word) : Bool :=
  let src := fun lo => srcFieldOk s (fnOfPort s p) (p / 8) (fld v lo 10)
  if r = 0x000 then
    let i := fld v 0 3; let l := fld v 6 2
    (speedsOf i).testBit (fld v 4 2) && (if i ≤ 1 then l == 0 else if i = 2 then decide (l ≤ 1) else l == 1)
  else if r = 0x018 then decide (64 ≤ fld v 0 14) && decide (fld v 0 14 ≤ 9216)
  else if r = 0x020 then fld v 28 2 == 0 || (decide (fld v 28 2 ≠ 3) && decide (2 ≤ fld v 0 16))
  else if r = 0x030 then src 0 && src 10 && src 20
  else if r = 0x034 then src 0 && src 10
  else if 0x100 ≤ r && r < 0x200 then
    match r % 0x20 with
    | 0x00 => src 0
    | 0x04 => decide (1 ≤ fld v 0 15) && decide (fld v 18 14 + fld v 0 15 ≤ 16384)
    | 0x08 => decide (1 ≤ fld v 0 10) && decide (fld v 18 14 + fld v 0 10 ≤ 16384)
    | _ => true
  else true

/-- MAC_CTL written (R399, R417). -/
def ctlWrite (s : State) (p : Nat) (v : Word) : State :=
  let s := setRg s (pa p 4) (v &&& 1)
  evalLink (if bit v 1 then retireAll s p else s) p

/-- Writes of a port's registers; MAC_ADDR_LO and MAC_TXPOST_LO are held with the agent, and take effect with MAC_ADDR_HI and MAC_TXPOST_HI
(00 R18). -/
def portWrite (s : State) (d : Desc) (acc : Acc) (t o : Nat) (v : Word) (flit : Bool) : State × Done :=
  let p := t * 8 + o / 0x800
  let r := o % 0x800
  if r = 0x004 then (ctlWrite s p v, .ok)
  else if 0x100 ≤ r && r < 0x200 && r % 0x20 = 0x10 then (flowConsume s p ((r - 0x100) / 0x20) v, .ok)
  else if r = 0x010 || r = 0x300 then (setHeldLo s acc (pa p r) (some v), .ok)
  else if r = 0x014 then
    let s := match heldLo s acc (pa p 0x10) with
      | some lo => setHeldLo (plainWrite s { d with rw := msk 0 32 } (pa p 0x10) lo) acc (pa p 0x10) none
      | none => s
    (plainWrite s d (pa p r) v, .ok)
  else if r = 0x304 then
    let lo := (heldLo s acc (pa p 0x300)).getD 0
    doPost (setHeldLo s acc (pa p 0x300) none) p lo v flit
  else if portValOk s p r v then (plainWrite s d (pa p r) v, .ok)
  else (s, .refused)

end Sys2Proof.Machine
end

