-- ==== Sys2Proof/Machine/Sequencers.lean ====
section
/-! DEFINITION. Pin sequencers (16): program words, tick boundaries, FIFOs, starting and stopping, registers. -/
namespace Sys2Proof.Machine

/-- Cluster address of a register of sequencer `n`. -/
def qa (n off : Nat) : Nat := ta (n / 32) (0x540000 + n % 32 * 0x100 + off)

/-- A live register of sequencer `n`. -/
def qr (s : State) (n off : Nat) : Word := rg s (qa n off)

/-- Raises a source field of sequencer `n`: ERRSRC is bit 20 of 0x0C, PRGSRC bit 0 of 0x10. -/
def raiseSeq (s : State) (n off lo : Nat) : State := raiseField s (n / 32) (0x540000 + n % 32 * 0x100 + off) lo

/-- Bits per step of a CFG value (R556), and W. -/
def pwOf (cfg : Word) : Nat := 2 ^ fld cfg 20 2
def wOf (cfg : Word) : Nat := fld cfg 15 5 + 1

/-- The pin set that CFG and PINS values name (R547). -/
def pinSet (cfg pins : Word) : List Nat :=
  (if bit cfg 24 then (List.range (pwOf cfg)).map fun i => (fld pins 22 6 + i) % 64 else []) ++
  ((List.range (fld pins 28 4)).map fun i => (fld pins 16 6 + i) % 64) ++
  ((List.range (fld pins 0 4)).map fun i => (fld pins 10 6 + i) % 64)

/-- The pins that sequencer `n` names, staged and live. -/
def seqPins (s : State) (n : Nat) : List Nat :=
  pinSet (sg s (qa n 0)) (sg s (qa n 4)) ++ pinSet (qr s n 0) (qr s n 4)

/-- A set sticky bit of STAT; ERRSRC at a change from 0 to 1 (R566). -/
def seqErr (s : State) (n b : Nat) : State :=
  if bit (qr s n 0x24) b then s else raiseSeq (modRg s (qa n 0x24) fun w => setBit w b true) n 0xC 20

/-- TXSRC and RXSRC follow the FIFO counts (R566). -/
def seqLevels (s : State) (n : Nat) : State :=
  let x := getSeq s n
  let cfg := qr s n 0
  let ev := qr s n 0xC
  let r := levelMsg s (n / 32) (fld ev 0 10) (decide (x.tx.length ≤ fld cfg 11 4)) x.txAt
  let q := levelMsg r.1 (n / 32) (fld ev 10 10) (decide (max 1 (fld cfg 7 4) ≤ x.rx.length)) x.rxAt
  modSeq q.1 n fun x => { x with txAt := r.2, rxAt := q.2 }

/-- A GP pin of tile `t` written: its value, its enable, or both (R549). -/
def pinWrite (s : State) (t pin : Nat) (v? oe? : Option Bool) : State :=
  modTile s t fun x =>
    { x with gpOut := match v? with | some v => setBit x.gpOut (pin % 64) v | none => x.gpOut,
             gpOe := match oe? with | some v => setBit x.gpOe (pin % 64) v | none => x.gpOe }

/-- The compare of R555. -/
def seqEqual (s : State) (n : Nat) : Bool :=
  let m := qr s n 0x1C
  ((getSeq s n).sr &&& m) == (qr s n 0x18 &&& m)

/-- The compare taken: MATCH holds its result. -/
def takeCompare (s : State) (n : Nat) : State × Bool :=
  let e := seqEqual s n
  (modSeq s n fun x => { x with mtch := e }, e)

/-- In bit `i` of sequencer `n` (R547). -/
def inBit (s : State) (n : Nat) (i : Nat) : Bool :=
  let pins := qr s n 4
  decide (i < fld pins 28 4) && bit (getTile s (n / 32)).gpIn ((fld pins 16 6 + i) % 64)

/-! ## Program words (R554, R555, R558) -/

/-- The fields of a program word: ACT, UNTIL, WATCH, CNT, PARM. -/
def actOf (w : Word) : Nat := fld w 20 4
def untilOf (w : Word) : Nat := fld w 17 3
def watchOf (w : Word) : Nat := fld w 14 3
def cntOf (w : Word) : Nat := fld w 8 6
def parmOf (w : Word) : Nat := fld w 0 8

/-- A program word that R554 and R555 allow. -/
def progOk (w : Word) : Bool :=
  decide (actOf w ≤ 0xA) && decide (untilOf w ≠ 7) && decide (fld w 24 8 = 0) &&
  (if actOf w = 4 ∨ actOf w = 5 then true else if actOf w = 8 then decide (parmOf w ≤ 1) else parmOf w == 0) &&
  (if untilOf w = 0 then true else if untilOf w ≤ 4 then cntOf w == 0 else decide (cntOf w ≤ 7)) &&
  (if untilOf w = 1 ∨ untilOf w = 2 then true else watchOf w == 0)

/-- The word at the sequencer's program counter. -/
def curWord (s : State) (n : Nat) : Word := qr s n (0x40 + 4 * (getSeq s n).pc.toNat)

/-- A FILL, SPILL or FLAG word that takes no tick of its own (R555). -/
def zeroTick (w : Word) : Bool :=
  (actOf w == 6 || actOf w == 7 || actOf w == 9) && untilOf w == 0 && cntOf w == 0

/-- A shift word: EMIT, GATHER, SWAP or HUNT, with its OE, IE and HUNT (R556). -/
def shiftOf (w : Word) : Option (Bool × Bool × Bool) :=
  match actOf w with
  | 1 => some (true, false, false)
  | 2 => some (false, true, false)
  | 3 => some (true, true, false)
  | 0xA => some (false, true, true)
  | _ => none

/-- The next word of the loop (R554). -/
def advance (s : State) (n : Nat) : State :=
  let loop := qr s n 0x14
  modSeq s n fun x =>
    { x with pc := if x.pc.toNat = fld loop 8 5 then BitVec.ofNat 5 (fld loop 0 5) else x.pc + 1, ticks := 0 }

/-- The word in progress cannot take its first tick: a FILL without a word, a SPILL without room (R555). -/
def fifoWait (s : State) (n : Nat) : Bool :=
  let x := getSeq s n
  decide (x.ticks = 0) && ((actOf (curWord s n) == 6 && x.tx.isEmpty) || (actOf (curWord s n) == 7 && decide (8 ≤ x.rx.length)))

/-! ## Word boundaries (R557) -/

/-- The low W bits of SR. -/
def srWord (s : State) (n : Nat) : Word := (getSeq s n).sr &&& msk 0 (wOf (qr s n 0))

/-- Step 3 and 4 of R557. -/
def refill (s : State) (n : Nat) : State :=
  let cfg := qr s n 0
  let x := getSeq s n
  if !bit cfg 30 then setSeq s n { x with bc := 0, sawIn := false, hold := .none }
  else match x.tx with
    | w :: rest => setSeq s n { x with sr := w &&& msk 0 (wOf cfg), tx := rest, bc := 0, sawIn := false, hold := .none }
    | [] =>
      let s := if x.hold = .word then s else seqErr s n 2
      modSeq s n fun x =>
        if bit cfg 28 then { x with sr := (if bit cfg 25 then msk 0 (wOf cfg) else 0), bc := 0, sawIn := false, hold := .none }
        else { x with hold := .word }

/-- Step 2 of R557, and what follows it. -/
def deposit (s : State) (n : Nat) : State :=
  let cfg := qr s n 0
  let x := getSeq s n
  if !(bit cfg 29 && x.sawIn) then refill s n
  else if x.rx.length < 8 then refill (setSeq s n { x with rx := x.rx ++ [srWord s n], hold := .none }) n
  else
    let s := if x.hold = .room then s else seqErr s n 3
    if bit cfg 27 then refill s n else modSeq s n fun x => { x with hold := .room }

/-- A data word is complete: step 1 of R557, and what follows it. -/
def wordBoundary (s : State) (n : Nat) : State :=
  let cfg := qr s n 0
  if bit cfg 23 then
    let (s, e) := takeCompare s n
    deposit (if e && bit cfg 22 then raiseSeq s n 0x10 0 else s) n
  else deposit s n

/-- A wait at a word boundary ends where its room or word has come. -/
def retryHold (s : State) (n : Nat) : State :=
  match (getSeq s n).hold with
  | .none => s
  | .room => deposit s n
  | .word => refill s n

/-! ## One boundary (R555, R556) -/

/-- Steps 2 to 5 of R556 for the step made at the boundary before; in bits that no sample gives are free values
(notes/assumptions/9.md). -/
def finishShift (s : State) (n : Nat) : State :=
  match (getSeq s n).due with
  | none => s
  | some (_, ie, hunt) =>
    let cfg := qr s n 0
    let w := wOf cfg; let pw := pwOf cfg
    let (k, s) := if ie then (0, s) else freshOf s
    let ins : Nat := if ie then (ofBits 32 ((List.range pw).filter (inBit s n))).toNat else (Config.freeWord k).toNat % 2 ^ pw
    let x := getSeq s n
    let sr := x.sr.toNat % 2 ^ w
    let sr' := if bit cfg 26 then (sr * 2 ^ pw + ins) % 2 ^ w else sr / 2 ^ pw + ins * 2 ^ (w - pw)
    let s := setSeq s n { x with sr := BitVec.ofNat 32 sr', due := none, sawIn := x.sawIn || (ie && !hunt),
                                 bc := if hunt then x.bc else x.bc + pw }
    let s := if hunt then (takeCompare s n).1 else s
    let u := untilOf (curWord s n)
    let s := if u = 3 ∨ u = 4 then
        let (s, e) := takeCompare s n
        if e = decide (u = 3) then advance s n else s
      else s
    if !hunt && decide (w ≤ (getSeq s n).bc) then wordBoundary s n else s

/-- The pins that a shift step with OE drives (R556). -/
def driveOut (s : State) (n : Nat) : State :=
  let cfg := qr s n 0
  let base := fld (qr s n 4) 22 6
  let lo := if bit cfg 26 then wOf cfg - pwOf cfg else 0
  if !bit cfg 24 then s
  else (List.range (pwOf cfg)).foldl (fun s i => pinWrite s (n / 32) (base + i) (some (bit (getSeq s n).sr (lo + i))) (some true)) s

/-- SET pins take the bits of PARM as values or as enables (R555). -/
def setPins (s : State) (n parm : Nat) (enable : Bool) : State :=
  let pins := qr s n 4
  (List.range (fld pins 0 4)).foldl (fun s i =>
    let b := some (parm.testBit i)
    if enable then pinWrite s (n / 32) (fld pins 10 6 + i) none b else pinWrite s (n / 32) (fld pins 10 6 + i) b none) s

/-- The action of a word at one of its ticks (R555). -/
def wordAct (s : State) (n : Nat) (w : Word) (first : Bool) : State :=
  match shiftOf w with
  | some (oe, ie, hunt) =>
    modSeq (if oe then driveOut s n else s) n fun x => { x with due := some (oe, ie, hunt) }
  | none =>
    match actOf w with
    | 4 => if first then setPins s n (parmOf w) false else s
    | 5 => if first then setPins s n (parmOf w) true else s
    | 6 => if first then modSeq s n fun x => { x with sr := x.tx.headD 0 &&& msk 0 (wOf (qr s n 0)), tx := x.tx.drop 1, bc := 0, sawIn := false } else s
    | 7 => if first then
        let d := srWord s n
        modSeq s n fun x => { x with rx := x.rx ++ [d], bc := 0, sawIn := false } else s
    | 8 =>
      let (s, e) := takeCompare s n
      if e && parmOf w == 1 then raiseSeq s n 0x10 0 else s
    | 9 => if first then raiseSeq s n 0x10 0 else s
    | _ => s

/-- Zero-tick words act, at most `k` of them; a FILL or SPILL that must wait stops the run (R555). -/
def zeroTicks : Nat → State → Nat → State
  | 0, s, _ => s
  | k + 1, s, n =>
    if zeroTick (curWord s n) && !fifoWait s n then zeroTicks k (advance (wordAct s n (curWord s n) true) n) n else s

/-- UNTIL holds after a tick, the compares of shift words apart, which `finishShift` takes (R555). -/
def untilHolds (s : State) (n : Nat) (w : Word) : Bool :=
  let x := getSeq s n
  match untilOf w with
  | 0 => decide (cntOf w + 1 ≤ x.ticks)
  | 1 => inBit s n (watchOf w)
  | 2 => !inBit s n (watchOf w)
  | 5 => decide (cntOf w + 1 ≤ x.tx.length)
  | 6 => decide (cntOf w + 1 + x.rx.length ≤ 8)
  | _ => false

/-- One tick of the word in progress (R555). -/
def oneTick (s : State) (n : Nat) : State :=
  let w := curWord s n
  if fifoWait s n || zeroTick w then s
  else
    let first := decide ((getSeq s n).ticks = 0)
    let s := modSeq (wordAct s n w first) n fun x => { x with ticks := x.ticks + 1 }
    if (shiftOf w).isNone && (untilOf w = 3 ∨ untilOf w = 4) then
      let (s, e) := takeCompare s n
      if e = decide (untilOf w = 3) then advance s n else s
    else if untilHolds s n w then advance s n else s

/-- RUNNING or STALLED (R559). -/
def seqState (s : State) (n : Nat) : SeqState :=
  let x := getSeq s n
  let u := untilOf (curWord s n)
  if x.hold ≠ .none || fifoWait s n || (decide (0 < x.ticks) && decide (1 ≤ u ∧ u ≤ 6)) then .stalled else .running

/-- The Datum has reached the boundary that comes next (R551): in a cluster of eight tiles S + k × P; in a smaller one the boundaries lie on
base ticks, which no command shows (notes/assumptions/10.md). -/
def boundaryDue (s : State) (n : Nat) : Bool :=
  let x := getSeq s n
  s.nTiles != 8 || atOrAfter (now s (n / 32)) (BitVec.ofNat 64 ((x.base + x.bounds * fld (qr s n 8) 0 24 + 255) / 256))

/-- A tick boundary of sequencer `n`, with the filtered levels of its tile's pins (R550, R553 to R557). -/
def seqBoundary (s : State) (n : Nat) (pins : BitVec 64) : State :=
  if (getSeq s n).st = .stopped || !powered s (n / 32) domPIN || !boundaryDue s n then s
  else
    let s := modSeq s n fun x => { x with bounds := x.bounds + 1 }
    let s := modTile s (n / 32) fun x => { x with gpIn := pins }
    let s := retryHold (finishShift s n) n
    let s := if (getSeq s n).hold = .none then oneTick (zeroTicks 4 s n) n else s
    let st := seqState s n
    seqLevels (modSeq s n fun x => { x with st := st }) n

/-! ## Starting and stopping (R560, R561) -/

/-- The time of boundary 0 in 1/256 ns: S, or S + m × P with the smallest m that lies in the future (R551). -/
def seqBase (s : State) (n : Nat) : Nat :=
  let p := fld (qr s n 8) 0 24
  let start := qr s n 0x38 ++ qr s n 0x34
  let d := (now s (n / 32) - start).toNat
  if atOrAfter start (now s (n / 32)) then start.toNat * 256 else start.toNat * 256 + (if p = 0 then 0 else (d * 256 / p + 1) * p)

/-- Starts a STOPPED sequencer. -/
def startSeq (s : State) (n : Nat) : State :=
  if (getSeq s n).st ≠ .stopped then s
  else
    let cfg := qr s n 0
    let base := fld (qr s n 4) 22 6
    let s := modSeq s n fun x =>
      { x with st := .armed, pc := BitVec.ofNat 5 (fld (qr s n 0x14) 0 5), bc := 0, ticks := 0, sawIn := false, due := none, hold := .none,
               base := seqBase s n, bounds := 0 }
    if bit cfg 24 then
      (List.range (pwOf cfg)).foldl (fun s i => pinWrite s (n / 32) (base + i) (some (bit cfg 25)) (some true)) s
    else s

/-- Stops a sequencer: SR, FIFOs and pins stay. -/
def stopSeq (s : State) (n : Nat) : State :=
  modSeq s n fun x => { x with st := .stopped, bc := 0, ticks := 0, sawIn := false, due := none, hold := .none, base := 0, bounds := 0 }

/-- RUN ← 1 (R560). -/
def runSeq (s : State) (n : Nat) : State := if isRunning s (fnOfSeq s n) then startSeq s n else s

/-- The stall limit (R563). -/
def seqSlim (s : State) (n : Nat) : State :=
  let x := getSeq s n
  let slim := fld (qr s n 8) 24 8
  let u := untilOf (curWord s n)
  if x.st ≠ .stopped && slim ≠ 0 && decide (1 ≤ u ∧ u ≤ 4) && decide (slim * 256 ≤ x.ticks) then stopSeq (seqErr s n 8) n else s

/-- A code error or stall (R564). -/
def seqFault (s : State) (n : Nat) : State := seqErr (stopSeq s n) n 7

/-- The enables of a function's pins are cleared when it enters LOADING or UNLOADED (R549). -/
def seqRelease (s : State) (f : Nat) : State :=
  let own := (List.range (s.nTiles * 32)).filter fun n => fnOfSeq s n == some f
  own.foldl (fun s n =>
    (seqPins s n).foldl (fun s pin =>
      let kept := (span (n / 32 * 32) 32).any fun m =>
        fnOfSeq s m != some f && isRunning s (fnOfSeq s m) && ownerOf s (fnOfSeq s m) == fnParcel s f && (seqPins s m).contains pin
      if kept then s else pinWrite s (n / 32) pin none (some false)) s) s

/-! ## FIFOs (R565, 07 R275) -/

/-- A push by PSQW: accepted or not. -/
def seqPush (s : State) (n : Nat) (v : Word) : State × Bool :=
  if (getSeq s n).tx.length < 8 then (seqLevels (modSeq s n fun x => { x with tx := x.tx ++ [v] }) n, true) else (s, false)

/-- A pop by PSQR. -/
def seqPop (s : State) (n : Nat) : State × Option Word :=
  match (getSeq s n).rx with
  | w :: rest => (seqLevels (modSeq s n fun x => { x with rx := rest }) n, some w)
  | [] => (s, none)

/-- A write of PSQn_TXF. -/
def txfWrite (s : State) (n : Nat) (v : Word) : State :=
  let (s', ok) := seqPush s n v
  if ok then s' else seqErr s n 4

/-- A read of PSQn_RXF. -/
def rxfRead (s : State) (acc : Acc) (n : Nat) : State × Word :=
  if !acc.effect then (s, (getSeq s n).rx.headD 0)
  else match seqPop s n with
    | (s', some w) => (s', w)
    | (_, none) => (seqErr s n 5, 0)

/-- A write of PSQn_CTL (R560, R561, R565). -/
def seqCtl (s : State) (n : Nat) (v : Word) : State :=
  let s := if bit v 1 then modSeq s n fun x => { x with tx := [] } else s
  let s := if bit v 2 then modSeq s n fun x => { x with rx := [] } else s
  let s := if bit v 0 then runSeq s n else stopSeq s n
  seqLevels s n

/-- The value of CTL with RUN as it reads, and a further bit. -/
def seqCtlWith (s : State) (n b : Nat) : Word := fields [(0, 1, (decide ((getSeq s n).st ≠ .stopped)).toNat), (b, 1, 1)]

/-! ## Registers (R562, R570, R571) -/

/-- The levels of GP pins that the reader may see (R571). -/
def pinIn (s : State) (acc : Acc) (t : Nat) : BitVec 64 :=
  let seen := (span (t * 32) 32).flatMap fun n =>
    match fnOfSeq s n with
    | some f => if holdsOver s acc t (fnParcel s f) then pinSet (qr s n 0) (qr s n 4) else []
    | none => []
  (getTile s t).gpIn &&& ofBits 64 seen

/-- Rights and codes of the sequencer registers. -/
def seqDesc (s : State) (t o : Nat) : Option Desc :=
  if o = 0x2004 || o = 0x2000 then some { rd := rAll, dom := domPIN }
  else if 0x2000 ≤ o then none
  else
    let f? := fnOfSeq s (t * 32 + o / 0x100)
    let r := o % 0x100
    let dat : Desc := { own := ownerOf s f?, unit := some f?, rd := rSWHD, wr := rSWHD, dom := domPIN }
    let ctl : Desc := { own := ownerOf s f?, unit := some f?, rd := rSWHD, wr := rSHD, dom := domPIN }
    let st : Desc := { ctl with staged := true }
    match r with
    | 0x00 => some { st with rw := msk 7 25 }
    | 0x04 => some { st with rw := msk 7 25 ||| msk 0 4 }
    | 0x08 => some { st with rw := msk 0 32 }
    | 0x0C => some { st with rw := msk 0 30 }
    | 0x10 => some { st with rw := msk 0 10 }
    | 0x14 => some { ctl with rw := msk 8 5 ||| msk 0 5 }
    | 0x18 => some { dat with rw := msk 0 32 }
    | 0x1C => some { dat with rw := msk 0 32 }
    | 0x20 => some dat
    | 0x24 => some { dat with w1c := msk 2 7 }
    | 0x28 => some dat
    | 0x2C => some dat
    | 0x30 => some dat
    | 0x34 => some { dat with rw := msk 0 32 }
    | 0x38 => some { dat with rw := msk 0 32 }
    | _ => if 0x40 ≤ r && r < 0xC0 && r % 4 = 0 then some { ctl with rw := msk 0 24 } else none

/-- STAT of sequencer `n`. -/
def seqStat (s : State) (n : Nat) : Word :=
  let x := getSeq s n
  qr s n 0x24 ||| fields [(30, 2, match x.st with | .stopped => 0 | .running => 1 | .stalled => 2 | .armed => 3), (25, 5, x.pc.toNat),
    (19, 6, x.bc), (15, 4, x.tx.length), (11, 4, x.rx.length), (10, 1, x.mtch.toNat)]

/-- Reads of the sequencer registers. -/
def seqRead (s : State) (d : Desc) (acc : Acc) (t o : Nat) : State × Word :=
  if o = 0x2000 then (s, (pinIn s acc t).setWidth 32)
  else if o = 0x2004 then (s, (pinIn s acc t >>> 32).setWidth 32)
  else
    let n := t * 32 + o / 0x100
    match o % 0x100 with
    | 0x20 => (s, fields [(0, 1, (decide ((getSeq s n).st ≠ .stopped)).toNat)])
    | 0x24 => (s, seqStat s n)
    | 0x28 => (s, 0)
    | 0x2C => rxfRead s acc n
    | 0x30 => (s, (getSeq s n).sr)
    | _ => plainRead s d acc (qa n (o % 0x100))

/-- The tick period P of a CLK value is at least 10 ns (R551), at the base tick of DREF / 4. -/
def clkOk (s : State) (v : Word) : Bool :=
  if s.nTiles = 8 then decide (10 * 256 ≤ fld v 0 24)
  else decide (10 * 256 * 4 * 2 ^ 24 ≤ fld v 0 24 * (rg s (ta 0 0x55F00C)).toNat)

/-- No pin of CFG and PINS values lies in the pin set of a sequencer of another parcel (R548). -/
def pinsFree (s : State) (n : Nat) (cfg pins : Word) : Bool :=
  let mine := pinSet cfg pins
  (span (n / 32 * 32) 32).all fun m =>
    m == n || (fnOfSeq s m).isNone || ownerOf s (fnOfSeq s m) == ownerOf s (fnOfSeq s n) ||
    (seqPins s m).all fun x => !mine.contains x

/-- Does a staged value keep the rules of chapter 16? -/
def seqValOk (s : State) (n r : Nat) (v : Word) : Bool :=
  let src := fun lo => srcFieldOk s (fnOfSeq s n) (n / 32) (fld v lo 10)
  match r with
  | 0x00 => decide (fld v 11 4 ≤ 8) && decide (fld v 7 4 ≤ 8) && decide (wOf v % pwOf v = 0) && pinsFree s n v (sg s (qa n 4))
  | 0x04 => decide (fld v 28 4 ≤ 8) && decide (fld v 0 4 ≤ 8) && pinsFree s n (sg s (qa n 0)) v
  | 0x08 => clkOk s v
  | 0x0C => src 0 && src 10 && src 20
  | 0x10 => src 0
  | _ => true

/-- A write of PSQn_PROGw, PSQn_LOOP or PSQn_START: only while STOPPED, and only what R554 allows (R558, R562). -/
def seqProgWrite (s : State) (d : Desc) (acc : Acc) (n r : Nat) (v : Word) : State :=
  let start := r = 0x34 || r = 0x38
  if start && s.nTiles ≠ 8 then s
  else if (getSeq s n).st ≠ .stopped then seqErr s n 6
  else if r = 0x14 then (if fld v 8 5 < fld v 0 5 then seqErr s n 6 else plainWrite s d (qa n r) v)
  else if r = 0x34 then setHeldLo s acc (qa n 0x34) (some v)
  else if r = 0x38 then
    let s := match heldLo s acc (qa n 0x34) with
      | some lo => setHeldLo (setRg s (qa n 0x34) lo) acc (qa n 0x34) none
      | none => s
    setRg s (qa n 0x38) v
  else if progOk (v &&& msk 0 24) then plainWrite s d (qa n r) v
  else seqErr s n 6

/-- Writes of the sequencer registers. -/
def seqWrite (s : State) (d : Desc) (acc : Acc) (t o : Nat) (v : Word) : State × Done :=
  let n := t * 32 + o / 0x100
  let r := o % 0x100
  if r = 0x20 then (seqCtl s n v, .ok)
  else if r = 0x28 then (txfWrite s n v, .ok)
  else if r = 0x2C || r = 0x30 then (s, .ok)
  else if r = 0x14 || r = 0x34 || r = 0x38 || 0x40 ≤ r then (seqProgWrite s d acc n r v, .ok)
  else if seqValOk s n r v then (plainWrite s d (qa n r) v, .ok)
  else (s, .refused)

end Sys2Proof.Machine
end

