-- ==== Sys2Proof/Machine/Timers.lean ====
section
/-! DEFINITION. Timer channels (17): counts, compare, capture, blanking, registers. -/
namespace Sys2Proof.Machine

/-- Cluster address of a register of timer channel `n`. -/
def tma (n off : Nat) : Nat := ta (n / 16) (0x550000 + n % 16 * 0x40 + off)

/-- A live register of channel `n`. -/
def tr (s : State) (n off : Nat) : Word := rg s (tma n off)

/-- Raises a source field of channel `n`: 0 CAPSRC, 10 CMPSRC, 20 ERRSRC. -/
def raiseTmr (s : State) (n lo : Nat) : State := raiseField s (n / 16) (0x550000 + n % 16 * 0x40 + 4) lo

/-- COUNT of channel `n` (R572). -/
def tmrCount (s : State) (n : Nat) : DWord := now s (n / 16) >>> fld (tr s n 0) 26 4

/-- MODE of a CFG value. -/
def modeOf (cfg : Word) : Nat := fld cfg 30 2

/-- CMPEN is 1 and MODE is not 3: compares are armed (R575). -/
def cmpLive (cfg : Word) : Bool := bit cfg 25 && decide (modeOf cfg ≠ 3)

/-- A set sticky bit of STAT; ERRSRC at a change from 0 to 1 (R581). -/
def tmrErr (s : State) (n b : Nat) : State :=
  if bit (tr s n 0x1C) b then s else raiseTmr (modRg s (tma n 0x1C) fun w => setBit w b true) n 20

/-- A match (R575): MATCH, CMPSRC, and the periodic re-arm from the old CMP. -/
def tmrMatch (s : State) (n : Nat) : State :=
  let x := getTmr s n
  let add := (tr s n 0x18).toNat
  let extra := (tmrCount s n - x.base).toNat - x.dist
  let s := raiseTmr (modRg s (tma n 0x1C) fun w => setBit w 0 true) n 10
  if add = 0 then setTmr s n { x with armed := false }
  else
    let k := extra / add
    let s := setTmr s n { x with base := x.base + BitVec.ofNat 64 (x.dist + k * add), dist := add }
    let s := modRg s (tma n 0x10) fun w => w + BitVec.ofNat 32 (add * (k + 1))
    if k = 0 then s else tmrErr s n 2

/-- Arms the compare with the value in CMP, the cases of R574 decided; `imm` for a write through TMRn_CMPI. -/
def tmrArm (s : State) (n : Nat) (imm : Bool) : State :=
  let c := tmrCount s n
  let d := (tr s n 0x10 - c.setWidth 32).toNat
  if imm && decide (d = 0) then tmrMatch (modTmr s n fun x => { x with armed := true, base := c, dist := 0 }) n
  else
    let s := modTmr s n fun x => { x with armed := true, base := c, dist := if d = 0 then 2 ^ 32 else d }
    if d = 0 ∨ d = 2 ^ 32 - 1 then tmrErr s n 1 else s

/-- A write of TMRn_CMP or TMRn_CMPI (R574, R575). -/
def cmpWrite (s : State) (n : Nat) (v : Word) (imm : Bool) : State :=
  let s := setRg s (tma n 0x10) v
  if cmpLive (tr s n 0) then tmrArm s n imm else s

/-- The step at which an armed compare matches has come (R574). -/
def cmpDue (s : State) (n : Nat) : State :=
  let x := getTmr s n
  if x.armed && decide (x.dist ≤ (tmrCount s n - x.base).toNat) then tmrMatch s n else s

/-- An accepted enable of the channel's function (R576, R578): `old` is the live CFG before it. -/
def tmrEnable (s : State) (n : Nat) (old : Word) : State :=
  let s := modTmr s n fun x => { x with edges := 0 }
  let new := tr s n 0
  if !cmpLive new then modTmr s n fun x => { x with armed := false }
  else if !cmpLive old then tmrArm s n false
  else if fld old 26 4 ≠ fld new 26 4 && (getTmr s n).armed then tmrArm s n false
  else s

/-- The held pair is replaced whole (R578, R579, R581). -/
def capReplace (s : State) (n : Nat) (capr capf : DWord) : State :=
  let x := getTmr s n
  let s := setTmr s n { x with capr, capf, fresh := true, ovr := x.ovr || x.fresh }
  let s := raiseTmr s n 0
  if x.fresh && !x.ovr then raiseTmr s n 20 else s

/-- The time of an edge at the capture input, counted in the channel's units (R577; 02 R60): in mode 2 that of the change itself, FILT + 1 base
ticks before its acceptance (R578). -/
def capTime (s : State) (n : Nat) : State × DWord :=
  let cfg := tr s n 0
  let (s, e) := eventTime s (n / 16)
  let back := if modeOf cfg = 2 then (fld cfg 11 4 + 1) * ((increment s (n / 16)).toNat / 2 ^ 26) else 0
  (s, eventNs (e - back) >>> fld cfg 26 4)

/-- An accepted edge at the capture input (R577, R578). -/
def capEdge (s : State) (n : Nat) (rising : Bool) : State :=
  let cfg := tr s n 0
  let x := getTmr s n
  if (fnOfTmr s n).isNone || modeOf cfg = 0 || modeOf cfg = 3 then s
  else
  let (s, t) := capTime s n
  match modeOf cfg with
  | 1 =>
    if rising != bit cfg 24 then setTmr s n { x with opening := some t }
    else match x.opening with
      | some o => capReplace (setTmr s n { x with opening := none }) n o t
      | none => s
  | 2 =>
    let e := fld cfg 22 2
    if (rising && e.testBit 0) || (!rising && e.testBit 1) then
      if fld cfg 0 8 ≤ x.edges then capReplace (setTmr s n { x with edges := 0 }) n t x.capr
      else setTmr s n { x with edges := x.edges + 1 }
    else s
  | _ => s

/-- WIDTH of a held pair (R578): the pulse width; in mode 2 the period over PRESC + 1 edges (notes/assumptions/11.md). -/
def capWidth (cfg : Word) (capr capf : DWord) : Word :=
  if modeOf cfg = 2 then (capr - capf).setWidth 32 else (capf - capr).setWidth 32

/-- A read of TMRn_CSNAP (R579). -/
def capSnap (s : State) (acc : Acc) (n : Nat) : State × Word :=
  let x := getTmr s n
  let v := fields [(1, 1, x.ovr.toNat), (0, 1, x.fresh.toNat)]
  (if acc.effect then
     setTmr s n { x with fresh := false, ovr := false, snapR := x.capr, snapF := x.capf,
                         snapW := capWidth (tr s n 0) x.capr x.capf }
   else s, v)

/-- A blanking window runs (R580). -/
def blankOn (s : State) (n : Nat) : Bool :=
  match (getTmr s n).blank with
  | some b => decide ((tmrCount s n - b).toNat < (tr s n 0x18).toNat)
  | none => false

/-- A blanking window starts (R580). -/
def blankStart (s : State) (n : Nat) : State := modTmr s n fun x => { x with blank := some (tmrCount s n) }

/-- The blanking window's end has come. -/
def blankEnd (s : State) (n : Nat) : State := if blankOn s n then s else modTmr s n fun x => { x with blank := none }

/-- The channel's function enters UNLOADED (R582). -/
def tmrUnload (s : State) (n : Nat) : State := setRg (setTmr s n {}) (tma n 0x1C) 0

/-! ## Registers (R577, R578, R598) -/

/-- Rights and codes of the timer registers. -/
def tmrDesc (s : State) (t o : Nat) : Option Desc :=
  let f? := fnOfTmr s (t * 16 + o / 0x40)
  let dat : Desc := { own := ownerOf s f?, unit := some f?, rd := rSWHD, wr := rSWHD }
  let st : Desc := { own := ownerOf s f?, unit := some f?, rd := rSWHD, wr := rSHD, staged := true }
  if 0x400 ≤ o then none else
  match o % 0x40 with
  | 0x00 => some { st with rw := msk 11 21 ||| msk 0 8 }
  | 0x04 => some { st with rw := msk 0 30 }
  | 0x08 => some dat
  | 0x0C => some dat
  | 0x10 => some { dat with rw := msk 0 32 }
  | 0x14 => some dat
  | 0x18 => some { dat with rw := msk 0 32 }
  | 0x1C => some { dat with w1c := msk 0 3 }
  | 0x20 => some dat
  | r => if 0x24 ≤ r && r ≤ 0x34 && r % 4 = 0 then some dat else none

/-- Reads of the timer registers. -/
def tmrRead (s : State) (d : Desc) (acc : Acc) (t o : Nat) : State × Word :=
  let n := t * 16 + o / 0x40
  let x := getTmr s n
  match o % 0x40 with
  | 0x08 => (s, (tmrCount s n).setWidth 32)
  | 0x0C => (s, (tmrCount s n >>> 32).setWidth 32)
  | 0x14 => (s, 0)
  | 0x1C => (s, tr s n 0x1C ||| fields [(4, 1, (blankOn s n).toNat), (3, 1, x.armed.toNat)])
  | 0x20 => capSnap s acc n
  | 0x24 => (s, x.snapR.setWidth 32)
  | 0x28 => (s, (x.snapR >>> 32).setWidth 32)
  | 0x2C => (s, x.snapF.setWidth 32)
  | 0x30 => (s, (x.snapF >>> 32).setWidth 32)
  | 0x34 => (s, x.snapW)
  | r => plainRead s d acc (tma n r)

/-- May channel `n` capture input `src` (R577)? -/
def capSrcOk (s : State) (n src : Nat) : Bool :=
  let t := n / 16
  let own := ownerOf s (fnOfTmr s n)
  if 80 ≤ src then false
  else if 64 ≤ src then
    match fnOfPwm s (t * 8 + (src - 64) % 8) with | some f => fnParcel s f == own | none => true
  else (span (t * 32) 32).all fun m =>
    match fnOfSeq s m with | some f => fnParcel s f == own || !(seqPins s m).contains src | none => true

/-- Writes of the timer registers. -/
def tmrWrite (s : State) (d : Desc) (t o : Nat) (v : Word) : State × Done :=
  let n := t * 16 + o / 0x40
  match o % 0x40 with
  | 0x00 =>
    if capSrcOk s n (fld v 15 7) && !(modeOf v == 2 && fld v 22 2 == 0) then (plainWrite s d (tma n 0) v, .ok) else (s, .refused)
  | 0x04 =>
    if [0, 10, 20].all fun lo => srcFieldOk s (fnOfTmr s n) t (fld v lo 10) then (plainWrite s d (tma n 4) v, .ok) else (s, .refused)
  | 0x10 => (cmpWrite s n v false, .ok)
  | 0x14 => (cmpWrite s n v true, .ok)
  | r => (plainWrite s d (tma n r) v, .ok)

end Sys2Proof.Machine
end

