-- ==== Sys2Proof/Machine/Pwm.lean ====
section
/-! DEFINITION. PWM pairs (17): carrier, reference signal, dead time, loads, trips, registers. -/
namespace Sys2Proof.Machine

/-- Cluster address of a register of PWM pair `p`. -/
def wa (p off : Nat) : Nat := ta (p / 8) (0x560000 + p % 8 * 0x40 + off)

/-- A live register of pair `p`. -/
def wr (s : State) (p off : Nat) : Word := rg s (wa p off)

/-- Raises a source field of pair `p`. -/
def raisePwm (s : State) (p off lo : Nat) : State := raiseField s (p / 8) (0x560000 + p % 8 * 0x40 + off) lo

/-- A set sticky bit of STAT; ERRSRC at a change from 0 to 1 (R592). -/
def pwmErr (s : State) (p b : Nat) : State :=
  if bit (wr s p 0x1C) b then s else raisePwm (modRg s (wa p 0x1C) fun w => setBit w b true) p 0xC 10

/-- The blanking channel of pair `p`, where BEN is 1 (R580). -/
def blankCh (s : State) (p : Nat) : Option Nat :=
  let c := wr s p 0
  if bit c 16 then some (p / 8 * 16 + fld c 12 4) else none

/-- STAT.BLANK of pair `p`. -/
def pwmBlank (s : State) (p : Nat) : Bool := ((blankCh s p).map (blankOn s)).getD false

/-- A change of R (R586, R588, R589, R592): the other output turns off, the selected one waits its dead time. -/
def refChange (s : State) (p : Nat) (r : Bool) : State :=
  let x := getPwm s p
  if x.r = r then s
  else
    let n := fld (wr s p 0xC) 20 4
    let y := { x with r := r, cc := if n ≤ x.cc then 0 else x.cc + 1,
                      aOn := x.aOn && r, bOn := x.bOn && !r, due := if x.oe then some r else none }
    let s := setPwm s p y
    if n ≤ x.cc then raisePwm s p 8 20 else s

/-- The effective compare of the period that begins at a carrier zero, and the accumulator (R587). -/
def dither (x : Pwm) : Pwm :=
  if x.duty = 0 ∨ x.duty = 0xFFFF then { x with eff := x.duty.toNat }
  else
    let a := x.acc.toNat + x.dfrac.toNat
    { x with eff := x.duty.toNat + (if 15 < a then 1 else 0), acc := BitVec.ofNat 4 a }

/-- Loads the shadows: PER, DUTY and DFRAC (R590, R591). -/
def loadShadow (s : State) (p : Nat) (per duty : Bool) (x : Pwm) : Pwm :=
  let d := wr s p 0x14
  let x := if per then { x with per := BitVec.ofNat 16 (fld (wr s p 0x10) 0 16), wPer := false } else x
  if duty then { x with duty := BitVec.ofNat 16 (fld d 16 16), dfrac := BitVec.ofNat 4 (fld d 0 4), wDuty := false } else x

/-- Outputs leave high impedance at a carrier zero or a start: driven off, the one that R selects pending (R595, R596). -/
def driveOff (x : Pwm) : Pwm := { x with oe := true, aOn := false, bOn := false, due := some x.r, rearm := false }

/-- The carrier zero (R587, R590 to R592, R595). -/
def pwmZero (s : State) (p : Nat) : State :=
  let x := getPwm s p
  if x.st = .off then s
  else
    let auto := bit (wr s p 0) 22
    let lp := if auto then x.wPer else x.pend
    let ld := if auto then x.wDuty else x.pend
    let split := auto && ((x.lone == some true && ld) || (x.lone == some false && lp))
    let x := loadShadow s p lp ld { x with pend := if auto then x.pend else false,
                                           lone := if lp && !ld then some true else if ld && !lp then some false else none }
    let n := fld (wr s p 0xC) 28 4
    let x := dither { x with carrier := 0, up := true, zc := if n ≤ x.zc then 0 else x.zc + 1 }
    let zsrc := decide (n ≤ (getPwm s p).zc)
    let s := setPwm s p x
    let s := if split then pwmErr s p 1 else s
    let s := refChange s p (decide (x.eff ≠ 0))
    let s := modPwm s p fun x => if x.rearm && decide (x.st = .running) then driveOff x else x
    if zsrc then raisePwm s p 8 0 else s

/-- The carrier top (R586, R592). -/
def pwmTop (s : State) (p : Nat) : State :=
  let x := getPwm s p
  if x.st = .off then s
  else
    let n := fld (wr s p 0xC) 24 4
    let s := setPwm s p { x with carrier := x.per, up := false, tc := if n ≤ x.tc then 0 else x.tc + 1 }
    let s := refChange s p (decide (x.per.toNat ≤ x.eff))
    if n ≤ x.tc then raisePwm s p 8 10 else s

/-- The carrier reaches the effective compare inside a slope (R586). -/
def pwmRef (s : State) (p : Nat) : State :=
  let x := getPwm s p
  if x.st = .off || !(decide (0 < x.eff) && decide (x.eff < x.per.toNat)) then s
  else refChange (setPwm s p { x with carrier := BitVec.ofNat 16 x.eff }) p (!x.up)

/-- A pending output turns on after `dt` base ticks of dead time (R588): exactly DTMIN with ADAPT 0, at most DTMAX. -/
def pwmTurnOn (s : State) (p dt : Nat) : State :=
  let x := getPwm s p
  let c := wr s p 4
  let adapt := bit (wr s p 0) 17
  let d := if adapt then min (max dt (fld c 0 10)) (fld c 16 10) else fld c 0 10
  match x.due with
  | none => s
  | some a =>
    let s := setPwm s p { x with due := none, aOn := a, bOn := !a }
    let s := modRg s (wa p 0x28) fun w => setFld w (if a then 0 else 16) 10 d
    if adapt && decide (d = fld c 16 10) then pwmErr s p 2 else s

/-- A trip (R593, R594): high impedance, no pending turn-on, the blanking window. -/
def pwmTrip (s : State) (p : Nat) (fault : Bool) : State :=
  let x := getPwm s p
  if x.st = .off then s
  else
    let s := setPwm s p { x with st := .tripped, tripf := true, ftrip := x.ftrip || fault, oe := false, aOn := false, bOn := false,
                                 due := none, rearm := false }
    let s := match blankCh s p with | some n => blankStart s n | none => s
    raisePwm s p 0xC 0

/-- The trip input, through its filter, becomes active or inactive (R593, R597). -/
def tripInput (s : State) (p : Nat) (active : Bool) : State :=
  let s := modPwm s p fun x => { x with lvl := active }
  if active then pwmTrip s p false else s

/-- CTL.TRIPCLR (R595). -/
def tripClear (s : State) (p : Nat) : State :=
  let x := getPwm s p
  if x.lvl || pwmBlank s p then pwmErr s p 3
  else if x.tripf then
    setPwm s p { x with tripf := false, ftrip := false, st := if x.st = .tripped then .running else x.st, rearm := decide (x.st = .tripped) }
  else s

/-- A start of an OFF pair (R596): a pair whose trip has not been cleared stays in high impedance. -/
def pwmStart (s : State) (p : Nat) : State :=
  let x := getPwm s p
  if x.st ≠ .off then s
  else
    let x := loadShadow s p true true
      { x with st := if x.tripf then .tripped else .running, carrier := 0, up := true, acc := 0, zc := 0, tc := 0, cc := 0,
               lone := none, pend := false }
    let x := dither x
    let x := { x with r := decide (x.eff ≠ 0) }
    setPwm s p (if x.tripf then x else driveOff x)

/-- RUN ← 1 (R596). -/
def pwmRun (s : State) (p : Nat) : State := if isRunning s (fnOfPwm s p) then pwmStart s p else s

/-- RUN ← 0, and UNLOADED: OFF, both outputs in high impedance (R596). -/
def pwmStop (s : State) (p : Nat) : State :=
  modPwm s p fun x => { x with st := .off, oe := false, aOn := false, bOn := false, due := none, rearm := false }

/-- A write of PWMp_CTL. -/
def pwmCtl (s : State) (p : Nat) (v : Word) : State :=
  let s := if bit v 1 && !bit (wr s p 0) 22 then modPwm s p fun x => { x with pend := true } else s
  let s := if bit v 2 then tripClear s p else s
  let s := if bit v 3 then pwmTrip s p false else s
  if bit v 0 then pwmRun s p else pwmStop s p

/-- The value of CTL with RUN as it reads, and a further bit. -/
def pwmCtlWith (s : State) (p b : Nat) : Word := fields [(0, 1, (decide ((getPwm s p).st ≠ .off)).toNat), (b, 1, 1)]

/-- A write of PWMp_PER (R585). -/
def perWrite (s : State) (p : Nat) (v : Word) : State :=
  let n := fld v 0 16
  if n ≤ 1 ∨ n = 0xFFFF then pwmErr s p 0
  else modPwm (setRg s (wa p 0x10) (v &&& 0xFFFF)) p fun x => { x with wPer := true }

/-- PWMp_A and PWMp_B: output value and enable of each (R584). -/
def pwmPins (s : State) (p : Nat) : (Bool × Bool) × (Bool × Bool) :=
  let x := getPwm s p; let c := wr s p 0
  ((x.oe && (x.aOn == bit c 21), x.oe), (x.oe && (x.bOn == bit c 20), x.oe))

/-! ## Registers (R599) -/

/-- Rights and codes of the PWM registers. -/
def pwmDesc (s : State) (t o : Nat) : Option Desc :=
  let f? := fnOfPwm s (t * 8 + o / 0x40)
  let dat : Desc := { own := ownerOf s f?, unit := some f?, rd := rSWHD, wr := rSWHD }
  let st : Desc := { own := ownerOf s f?, unit := some f?, rd := rSWHD, wr := rSHD, staged := true }
  if 0x200 ≤ o then none else
  match o % 0x40 with
  | 0x00 => some { st with rw := msk 8 24 }
  | 0x04 => some { st with rw := msk 16 10 ||| msk 0 10 }
  | 0x08 => some { st with rw := msk 0 30 }
  | 0x0C => some { st with rw := msk 0 32 }
  | 0x10 => some { dat with rw := msk 0 16 }
  | 0x14 => some { dat with rw := msk 16 16 ||| msk 0 4 }
  | 0x18 => some dat
  | 0x1C => some { dat with w1c := msk 0 4 }
  | 0x20 => some dat
  | 0x24 => some dat
  | 0x28 => some dat
  | _ => none

/-- Reads of the PWM registers. The carrier between its zeros, tops and compares is not stepped by the model: while a pair runs,
COUNT reads a free value (notes/assumptions/10.md). -/
def pwmRead (s : State) (d : Desc) (acc : Acc) (t o : Nat) : State × Word :=
  let p := t * 8 + o / 0x40
  let x := getPwm s p
  match o % 0x40 with
  | 0x18 => (s, fields [(0, 1, (decide (x.st ≠ .off)).toNat)])
  | 0x1C =>
    (s, wr s p 0x1C ||| fields [(30, 2, match x.st with | .off => 0 | .running => 1 | .tripped => 2), (8, 1, x.ftrip.toNat),
      (7, 1, x.lvl.toNat), (6, 1, x.tripf.toNat), (5, 1, (pwmBlank s p).toNat), (4, 1, x.pend.toNat)])
  | 0x20 =>
    if x.st = .off then (s, fields [(16, 16, x.per.toNat), (0, 16, x.carrier.toNat)])
    else
      let (k, s) := freshOf s
      (s, fields [(16, 16, x.per.toNat), (0, 16, (Config.freeWord k).toNat)])
  | 0x24 => (s, fields [(16, 16, x.duty.toNat), (0, 4, x.dfrac.toNat)])
  | r => plainRead s d acc (wa p r)

/-- Does a staged value keep R580 and R599? -/
def pwmValOk (s : State) (p r : Nat) (v : Word) : Bool :=
  let src := fun lo => srcFieldOk s (fnOfPwm s p) (p / 8) (fld v lo 10)
  match r with
  | 0x00 =>
    let n := p / 8 * 16 + fld v 12 4
    !bit v 16 || ((fnOfTmr s n).isSome && fnOfTmr s n == fnOfPwm s p && modeOf (sg s (tma n 0)) == 3)
  | 0x04 => decide (fld v 0 10 ≤ fld v 16 10)
  | 0x08 => src 0 && src 10 && src 20
  | 0x0C => src 0 && src 10
  | _ => true

/-- Writes of the PWM registers. -/
def pwmWrite (s : State) (d : Desc) (t o : Nat) (v : Word) : State × Done :=
  let p := t * 8 + o / 0x40
  match o % 0x40 with
  | 0x10 => (perWrite s p v, .ok)
  | 0x14 => (modPwm (plainWrite s d (wa p 0x14) v) p fun x => { x with wDuty := true }, .ok)
  | 0x18 => (pwmCtl s p v, .ok)
  | r => if pwmValOk s p r v then (plainWrite s d (wa p r) v, .ok) else (s, .refused)

end Sys2Proof.Machine
end

