-- ==== Sys2Proof/Machine/Datum.lean ====
section
/-! DEFINITION. The Datum, reference loss, rate adjustment and the pace monitor (02). -/
namespace Sys2Proof.Machine

/-- A Datum register or pace register of tile `t`, live. -/
def dr (s : State) (t off : Nat) : Word := rg s (ta t (0x55F000 + off))

/-- One edge of the reference on tile `t` (R56). -/
def tickTile (s : State) (t : Nat) : State :=
  modTile s t fun x =>
    let v := (x.ns.toNat * 2 ^ 40 + x.frac.toNat + (increment s t).toNat) % 2 ^ 104
    { x with ns := BitVec.ofNat 64 (v / 2 ^ 40), frac := BitVec.ofNat 40 v }

/-- The Datum runs from the internal reference (R63): `b` is the cause's bit of TMR_DSTAT. Every declaration leaves a record; the source
is raised where HOLD changes (10 R366). -/
def enterHold (s : State) (t b : Nat) : State :=
  let held := bit (dr s t 0x14) 0
  let s := modRg s (ta t 0x55F014) fun w => setBit (setBit w b true) 0 true
  writeFault (if held then s else raiseEdge s t 0x3C2) t { outcome := 5, cls := 0x0C, unit := 0x10, ack := true }

/-- The Datum returns to DREF (R65). -/
def leaveHold (s : State) (t : Nat) : State :=
  if bit (dr s t 0x14) 0 then
    raiseEdge (modRg s (ta t 0x55F014) fun w => setBit (setBit w 0 false) 3 true) t 0x3C2
  else s

/-- A write of TMR_DADJ on tile 0 (R67, R68). -/
def dadjWrite (s : State) (v : Word) : State :=
  let lim : Int := 1024000000
  if lim < v.toInt then modRg (setRg s (ta 0 0x55F010) (BitVec.ofInt 32 lim)) (ta 0 0x55F014) fun w => setBit w 4 true
  else if v.toInt < -lim then modRg (setRg s (ta 0 0x55F010) (BitVec.ofInt 32 (-lim))) (ta 0 0x55F014) fun w => setBit w 4 true
  else setRg s (ta 0 0x55F010) v

/-! ## The pace monitor (R75 to R84) -/

/-- The count of quad `q` at the end of a window (R77 to R79); a window in which the quad woke is not complete and shows nothing. -/
def paceQuad (s : State) (t q n : Nat) : State :=
  if !powered s t (domQ q) then s
  else if bit (getTile s t).paceNew q then modTile s t fun x => { x with paceNew := setBit x.paceNew q false }
  else
    let ctl := dr s t 0x20
    let floor := fld ctl 0 10
    let c := min n 1023
    let s := modRg s (ta t (0x55F030 + q * 4)) fun w => setFld (setFld w 0 10 c) 16 10 (min (fld w 16 10) c)
    let s := modRg s (ta t 0x55F024) fun w => setBit w (8 + q) true
    if floor ≠ 0 ∧ c < floor then
      let s := modTile s t fun x => { x with goodWin := vset x.goodWin q 0 }
      let s := modRg s (ta t 0x55F024) fun w => setBit (setBit w q true) (4 + q) true
      let s := raiseEdge s t 0x3C1
      if bit ctl 16 then writeFault s t { outcome := 5, cls := 0x0E, unit := 0x11, inst := q, ack := true } else s
    else
      let g := if floor + fld ctl 12 4 ≤ c then vget 0 (getTile s t).goodWin q + 1 else 0
      let s := modTile s t fun x => { x with goodWin := vset x.goodWin q (min g 8) }
      if 8 ≤ g then modRg s (ta t 0x55F024) fun w => setBit w q false else s

/-- The end of a window of 1024 ns with the four quads' counts. -/
def paceEnd (s : State) (t : Nat) (c : List Nat) : State := c.zipIdx.foldl (fun s x => paceQuad s t x.2 x.1) s

/-- A write of TMR_PACE_CTL (R76, R81). -/
def paceCtl (s : State) (t : Nat) (v : Word) : State :=
  if fld v 0 10 < 400 then modRg s (ta t 0x55F024) fun w => setBit w 13 true
  else
    let s := setRg s (ta t 0x55F020) (v &&& 0x1F3FF)
    if bit v 17 then (List.range 4).foldl (fun s q => modRg s (ta t (0x55F030 + q * 4)) fun w => setFld w 16 10 0x3FF) s else s

/-- Bits of the quads that are powered. -/
def quadMask (s : State) (t : Nat) : Word := ofBits 32 ((List.range 4).filter fun q => powered s t (domQ q))

/-- TMR_PACE_STAT (R82): VALID only of powered quads, ANY the OR of LVL. -/
def paceStat (s : State) (t : Nat) : Word :=
  let w := dr s t 0x24
  (w &&& ~~~0x1F00#32) ||| (w &&& (quadMask s t <<< 8)) ||| fields [(12, 1, (decide (fld w 0 4 ≠ 0)).toNat)]

/-! ## Registers -/

/-- The owner of the Datum registers (R66). -/
def timekeeper (s : State) : Nat := (s.hdr.map fun h => if h.timekeeper < 16 then h.timekeeper else 0).getD 0

/-- Rights and codes of the Datum and pace registers; `o` the offset from 0x55_F000. -/
def datDesc (s : State) (t o : Nat) : Option Desc :=
  let dat : Desc := { own := timekeeper s, rd := rAll }
  let ks : Rt := { k := true, s := true }
  let pace : Desc := { rd := { k := true, d := true }, wr := { k := true } }
  match o with
  | 0x00 => some dat
  | 0x04 => some dat
  | 0x08 => some dat
  | 0x0C => some dat
  | 0x10 => some (if t = 0 then { dat with wr := ks } else dat)
  | 0x14 => some { dat with wr := ks, w1c := msk 1 4 }
  | 0x20 => some pace
  | 0x24 => some { pace with w1c := 0x20F0 }
  | 0x28 => some { rd := rAll }
  | _ => if 0x30 ≤ o && o < 0x40 && o % 4 = 0 then some { pace with wr := rNone } else none

/-- Reads. -/
def datRead (s : State) (d : Desc) (acc : Acc) (t o : Nat) : State × Word :=
  let x := getTile s t
  match o with
  | 0x00 => (s, x.ns.setWidth 32)
  | 0x04 => (s, (x.ns >>> 32).setWidth 32)
  | 0x08 => (s, fields [(16, 16, (x.frac >>> 24).toNat), (0, 16, x.ns.toNat)])
  | 0x24 => (s, paceStat s t)
  | 0x28 => (s, fields [(0, 1, (decide (fld (dr s t 0x24) 0 4 ≠ 0)).toNat)])
  | _ =>
    if 0x30 ≤ o then
      let w := dr s t o
      (s, if powered s t (domQ ((o - 0x30) / 4)) then w else setFld w 0 10 0)
    else plainRead s d acc (ta t (0x55F000 + o))

/-- Writes. -/
def datWrite (s : State) (d : Desc) (t o : Nat) (v : Word) : State × Done :=
  match o with
  | 0x10 => (dadjWrite s v, .ok)
  | 0x20 => (paceCtl s t v, .ok)
  | _ => (plainWrite s d (ta t (0x55F000 + o)) v, .ok)

end Sys2Proof.Machine
end

