-- ==== Sys2Proof/Machine/Clock.lean ====
section
/-! DEFINITION. Cluster reset and the key port's test state (04 R135, 19 R647), the reference and the pace windows (02). -/
namespace Sys2Proof.Machine

/-- The block in cluster reset (00 R13, 19 R647): everything at its reset value but the straps, the flash, the level of KP_TEST, the scan
port's instruction, which R600 of 18 leaves alone, the queue of commands and the counter behind free values. -/
def clusterReset (s : State) : State :=
  { pending := s.pending, nTiles := s.nTiles, kpTest := s.kpTest, fresh := s.fresh, flash := s.flash, dbg := { ir := s.dbg.ir, idr := s.dbg.idr } }

/-- CLUSTER_RESET (19 R647). -/
def execClusterReset (s : State) : Host.Outcome State Fault Refusal := .next (clusterReset s)

/-- KEY_PORT_TEST_ASSERT (04 R135): every tile is held in cluster reset, every store zero. -/
def execKeyPortTestAssert (s : State) : Host.Outcome State Fault Refusal := .next { clusterReset s with kpTest := true }

/-- KEY_PORT_TEST_DEASSERT (04 R135): a full cluster reset follows. -/
def execKeyPortTestDeassert (s : State) : Host.Outcome State Fault Refusal :=
  .next (if s.kpTest then { clusterReset s with kpTest := false } else s)

/-- Tile `t` exists and is out of reset. -/
def tileRuns (s : State) (t : Nat) : Bool := s.begun && decide (t < s.nTiles)

/-- REFERENCE_LOST (02 R63): HOLD and LOST. -/
def execReferenceLost (t : Nat) (s : State) : Host.Outcome State Fault Refusal := .next (if tileRuns s t then enterHold s t 1 else s)

/-- REFERENCE_OUT_OF_RANGE (02 R63): HOLD and RANGE. -/
def execReferenceOutOfRange (t : Nat) (s : State) : Host.Outcome State Fault Refusal :=
  .next (if tileRuns s t then enterHold s t 2 else s)

/-- REFERENCE_RESUMED (02 R65). -/
def execReferenceResumed (t : Nat) (s : State) : Host.Outcome State Fault Refusal := .next (if tileRuns s t then leaveHold s t else s)

/-- PACE_WINDOW_END (02 R77 to R79): `q0` to `q3` the counts of the four quads in the window. -/
def execPaceWindowEnd (t : Nat) (q0 q1 q2 q3 : Nat) (s : State) : Host.Outcome State Fault Refusal :=
  .next (if tileRuns s t then paceEnd s t [q0, q1, q2, q3] else s)

end Sys2Proof.Machine
end

