-- ==== Sys2Proof/Machine/Crypto.lean ====
section
/-! DEFINITION. The cryptographic functions that 03 and 04 name, from their standards: SHA-384 (FIPS 180-4), HMAC (RFC 2104), HKDF-Expand
(RFC 5869), AES-256 and GCM (FIPS 197, SP 800-38D), ECDSA over P-384 (FIPS 186-5). notes/assumptions/16.md -/
namespace Sys2Proof.Machine

/-! ## SHA-384 -/

/-- Round constants. -/
def shaK : List DWord :=
  [0x428A2F98D728AE22, 0x7137449123EF65CD, 0xB5C0FBCFEC4D3B2F, 0xE9B5DBA58189DBBC,
   0x3956C25BF348B538, 0x59F111F1B605D019, 0x923F82A4AF194F9B, 0xAB1C5ED5DA6D8118,
   0xD807AA98A3030242, 0x12835B0145706FBE, 0x243185BE4EE4B28C, 0x550C7DC3D5FFB4E2,
   0x72BE5D74F27B896F, 0x80DEB1FE3B1696B1, 0x9BDC06A725C71235, 0xC19BF174CF692694] ++
  [0xE49B69C19EF14AD2, 0xEFBE4786384F25E3, 0x0FC19DC68B8CD5B5, 0x240CA1CC77AC9C65,
   0x2DE92C6F592B0275, 0x4A7484AA6EA6E483, 0x5CB0A9DCBD41FBD4, 0x76F988DA831153B5,
   0x983E5152EE66DFAB, 0xA831C66D2DB43210, 0xB00327C898FB213F, 0xBF597FC7BEEF0EE4,
   0xC6E00BF33DA88FC2, 0xD5A79147930AA725, 0x06CA6351E003826F, 0x142929670A0E6E70] ++
  [0x27B70A8546D22FFC, 0x2E1B21385C26C926, 0x4D2C6DFC5AC42AED, 0x53380D139D95B3DF,
   0x650A73548BAF63DE, 0x766A0ABB3C77B2A8, 0x81C2C92E47EDAEE6, 0x92722C851482353B,
   0xA2BFE8A14CF10364, 0xA81A664BBC423001, 0xC24B8B70D0F89791, 0xC76C51A30654BE30,
   0xD192E819D6EF5218, 0xD69906245565A910, 0xF40E35855771202A, 0x106AA07032BBD1B8] ++
  [0x19A4C116B8D2D0C8, 0x1E376C085141AB53, 0x2748774CDF8EEB99, 0x34B0BCB5E19B48A8,
   0x391C0CB3C5C95A63, 0x4ED8AA4AE3418ACB, 0x5B9CCA4F7763E373, 0x682E6FF3D6B2B8A3,
   0x748F82EE5DEFB2FC, 0x78A5636F43172F60, 0x84C87814A1F0AB72, 0x8CC702081A6439EC,
   0x90BEFFFA23631E28, 0xA4506CEBDE82BDE9, 0xBEF9A3F7B2C67915, 0xC67178F2E372532B] ++
  [0xCA273ECEEA26619C, 0xD186B8C721C0C207, 0xEADA7DD6CDE0EB1E, 0xF57D4F7FEE6ED178,
   0x06F067AA72176FBA, 0x0A637DC5A2C898A6, 0x113F9804BEF90DAE, 0x1B710B35131C471B,
   0x28DB77F523047D84, 0x32CAAB7B40C72493, 0x3C9EBE0A15C9BEBC, 0x431D67C49C100D4C,
   0x4CC5D4BECB3E42B6, 0x597F299CFC657E2A, 0x5FCB6FAB3AD6FAEC, 0x6C44198C4A475817]

/-- Initial hash value. -/
def shaInit : List DWord :=
  [0xCBBB9D5DC1059ED8, 0x629A292A367CD507, 0x9159015A3070DD17, 0x152FECD8F70E5939,
   0x67332667FFC00B31, 0x8EB44A8768581511, 0xDB0C2E0D64F98FA7, 0x47B5481DBEFA4FA4]

/-- Sixteen words of the schedule, oldest first, to the next sixteenth: one word further. -/
def shaNext (w : List DWord) : DWord :=
  let x (i : Nat) : DWord := w.getD i 0
  let s0 := (x 1).rotateRight 1 ^^^ (x 1).rotateRight 8 ^^^ (x 1) >>> 7
  let s1 := (x 14).rotateRight 19 ^^^ (x 14).rotateRight 61 ^^^ (x 14) >>> 6
  x 0 + s0 + x 9 + s1

/-- One round on the working variables a to h. -/
def shaRound (v : List DWord) (k w : DWord) : List DWord :=
  match v with
  | [a, b, c, d, e, f, g, h] =>
    let t1 := h + (e.rotateRight 14 ^^^ e.rotateRight 18 ^^^ e.rotateRight 41) + ((e &&& f) ^^^ (~~~e &&& g)) + k + w
    let t2 := (a.rotateRight 28 ^^^ a.rotateRight 34 ^^^ a.rotateRight 39) + ((a &&& b) ^^^ (a &&& c) ^^^ (b &&& c))
    [t1 + t2, a, b, c, d + t1, e, f, g]
  | _ => v

/-- The rounds of one block, by the constants left. -/
def shaRounds : List DWord → List DWord → List DWord → List DWord
  | [], _, v => v
  | k :: ks, w, v => shaRounds ks (w.drop 1 ++ [shaNext w]) (shaRound v k (w.getD 0 0))

/-- Big-endian 64-bit words of bytes, `n` of them. -/
def beWords : Nat → List Byte → List DWord
  | 0, _ => []
  | n + 1, bs => BitVec.ofNat 64 (beVal (bs.take 8)) :: beWords n (bs.drop 8)

/-- The compression of `n` blocks of 128 bytes. -/
def shaBlocks : Nat → List Byte → List DWord → List DWord
  | 0, _, h => h
  | n + 1, bs, h => shaBlocks n (bs.drop 128) (List.zipWith (· + ·) h (shaRounds shaK (beWords 16 (bs.take 128)) h))

/-- The low `k` bytes of a number, most significant first. -/
def beBytes (k v : Nat) : List Byte := (leBytes k v).reverse

/-- SHA-384 of bytes: 48 bytes. -/
def sha384 (bs : List Byte) : List Byte :=
  let n := bs.length
  let pad := (239 - n % 128) % 128
  let m := bs ++ [0x80] ++ List.replicate pad 0 ++ beBytes 16 (8 * n)
  ((shaBlocks (m.length / 128) m shaInit).take 6).flatMap fun w => beBytes 8 w.toNat

/-- A digest as the model keeps it: byte i in bits 8i+7:8i. -/
def digestBits (bs : List Byte) : BitVec 384 := BitVec.ofNat 384 (leVal bs)

/-! ## HMAC-SHA-384 and HKDF-Expand -/

/-- HMAC-SHA-384. -/
def hmac (key msg : List Byte) : List Byte :=
  let k0 := if 128 < key.length then sha384 key else key
  let k := k0 ++ List.replicate (128 - k0.length) 0
  sha384 ((k.map (· ^^^ 0x5C)) ++ sha384 ((k.map (· ^^^ 0x36)) ++ msg))

/-- HKDF-Expand to at most 48 bytes. -/
def hkdf (prk info : List Byte) (l : Nat) : List Byte := (hmac prk (info ++ [1])).take l

/-- ASCII text as bytes. -/
def ascii (t : String) : List Byte := t.toList.map fun c => BitVec.ofNat 8 c.toNat

/-! ## AES-256 and GCM -/

/-- Multiplication by x in GF(2^8). -/
def xtime (a : Byte) : Byte := (a <<< 1) ^^^ (if a.msb then 0x1B else 0)

/-- Product in GF(2^8), by the bits of `b` left. -/
def gmul : Nat → Byte → Byte → Byte
  | 0, _, _ => 0
  | n + 1, a, b => (if b.getLsbD 0 then a else 0) ^^^ gmul n (xtime a) (b >>> 1)

/-- a^254, the inverse, as a^2 * a^4 * ... * a^128. -/
def ginv (a : Byte) : Byte :=
  ((List.range 7).foldl (fun (r : Byte × Byte) _ => let q := gmul 8 r.2 r.2; (gmul 8 r.1 q, q)) (1, a)).1

/-- The S-box. -/
def sbox (a : Byte) : Byte :=
  let b := ginv a
  b ^^^ b.rotateLeft 1 ^^^ b.rotateLeft 2 ^^^ b.rotateLeft 3 ^^^ b.rotateLeft 4 ^^^ 0x63

/-- Key schedule words of AES-256: from `i`, `n` more, the words so far newest first. -/
def aesExpand : Nat → Nat → List (List Byte) → List (List Byte)
  | 0, _, ws => ws
  | n + 1, i, ws =>
    let t := ws.getD 0 []
    let p := ws.getD 7 []
    let rc : Byte := 1 <<< (i / 8 - 1)
    let t := if i % 8 = 0 then
        match t.drop 1 ++ t.take 1 with
        | a :: r => (sbox a ^^^ rc) :: r.map sbox
        | [] => []
      else if i % 8 = 4 then t.map sbox else t
    aesExpand n (i + 1) (List.zipWith (· ^^^ ·) p t :: ws)

/-- The fifteen round keys of 16 bytes. -/
def aesKeys (key : List Byte) : List (List Byte) :=
  let ws := (aesExpand 52 8 ((List.range 8).reverse.map fun i => (key.drop (4 * i)).take 4)).reverse
  (List.range 15).map fun r => ((ws.drop (4 * r)).take 4).flatMap fun w => w

/-- SubBytes and ShiftRows. -/
def subShift (b : List Byte) : List Byte := (List.range 16).map fun i => sbox (b.getD ((i + 4 * (i % 4)) % 16) 0)

/-- MixColumns. -/
def mixCols (b : List Byte) : List Byte :=
  (List.range 16).map fun i =>
    let x (j : Nat) : Byte := b.getD (i / 4 * 4 + (i + j) % 4) 0
    xtime (x 0) ^^^ (xtime (x 1) ^^^ x 1) ^^^ x 2 ^^^ x 3

/-- Bytewise exclusive or, to the shorter length. -/
def xorBytes (a b : List Byte) : List Byte := List.zipWith (· ^^^ ·) a b

/-- The rounds after the first key, by the keys left. -/
def aesRounds : List (List Byte) → List Byte → List Byte
  | [], b => b
  | [k], b => xorBytes (subShift b) k
  | k :: k' :: ks, b => aesRounds (k' :: ks) (xorBytes (mixCols (subShift b)) k)

/-- One AES-256 block under expanded keys. -/
def aesBlock (ks : List (List Byte)) (b : List Byte) : List Byte :=
  match ks with
  | k :: r => aesRounds r (xorBytes b k)
  | [] => b

/-- Product in GCM's GF(2^128), by the bits of `x` left, most significant first. -/
def ghMul : Nat → BitVec 128 → BitVec 128 → BitVec 128
  | 0, _, _ => 0
  | n + 1, x, v =>
    (if x.msb then v else 0) ^^^ ghMul n (x <<< 1) ((v >>> 1) ^^^ (if v.getLsbD 0 then 0xE1 <<< 120 else 0))

/-- GHASH over `n` blocks of 16 bytes, the last padded with zeros. -/
def ghash (h : BitVec 128) : Nat → List Byte → BitVec 128 → BitVec 128
  | 0, _, y => y
  | n + 1, bs, y =>
    let b := bs.take 16
    ghash h n (bs.drop 16) (ghMul 128 (y ^^^ BitVec.ofNat 128 (beVal (b ++ List.replicate (16 - b.length) 0))) h)

/-- Blocks of 16 bytes in a length. -/
def blocks16 (n : Nat) : Nat := (n + 15) / 16

/-- The key stream applied to bytes from counter `c`. -/
def gctr (ks : List (List Byte)) (iv : List Byte) : Nat → Nat → List Byte → List Byte
  | 0, _, _ => []
  | n + 1, c, bs => xorBytes (bs.take 16) (aesBlock ks (iv ++ beBytes 4 c)) ++ gctr ks iv n (c + 1) (bs.drop 16)

/-- AES-256-GCM decryption with a 12-byte IV and a 16-byte tag; `none` where the tag fails. -/
def gcmOpen (key iv aad ct tag : List Byte) : Option (List Byte) :=
  let ks := aesKeys key
  let h := BitVec.ofNat 128 (beVal (aesBlock ks (List.replicate 16 0)))
  let y := ghash h (blocks16 aad.length) aad 0
  let y := ghash h (blocks16 ct.length) ct y
  let y := ghash h 1 (beBytes 8 (8 * aad.length) ++ beBytes 8 (8 * ct.length)) y
  if xorBytes (beBytes 16 y.toNat) (aesBlock ks (iv ++ beBytes 4 1)) = tag then some (gctr ks iv (blocks16 ct.length) 2 ct) else none

/-! ## ECDSA over P-384 -/

def ecP : Nat := 0xFFFFFFFFFFFFFFFFFFFFFFFFFFFFFFFFFFFFFFFFFFFFFFFFFFFFFFFFFFFFFFFEFFFFFFFF0000000000000000FFFFFFFF
def ecB : Nat := 0xB3312FA7E23EE7E4988E056BE3F82D19181D9C6EFE8141120314088F5013875AC656398D8A2ED19D2A85C8EDD3EC2AEF
def ecN : Nat := 0xFFFFFFFFFFFFFFFFFFFFFFFFFFFFFFFFFFFFFFFFFFFFFFFFC7634D81F4372DDF581A0DB248B0A77AECEC196ACCC52973
def ecG : Nat × Nat :=
  (0xAA87CA22BE8B05378EB1C71EF320AD746E1D3B628BA79B9859F741E082542A385502F25DBF55296C3A545E3872760AB7,
   0x3617DE4A96262C6F5D9E98BF9292DC29F8F41DBD289A147CE9DA3113B5F0B8C00A60B1CE1D7E819D7A431D7C90EA0E5F)

/-- b^e mod m, by the bits of `e` left. -/
def powMod (m : Nat) : Nat → Nat → Nat → Nat
  | 0, _, _ => 1 % m
  | n + 1, b, e => (if e % 2 = 1 then b else 1) * powMod m n (b * b % m) (e / 2) % m

/-- Inverse modulo a prime. -/
def invMod (m a : Nat) : Nat := powMod m 384 (a % m) (m - 2)

/-- a - b modulo the field prime. -/
def fSub (a b : Nat) : Nat := (a + ecP - b % ecP) % ecP

/-- Sum of two points of the curve in homogeneous coordinates (X : Y : Z), (0 : 1 : 0) the point at infinity: the addition law without
exceptions. -/
def ecAdd (a b : Nat × Nat × Nat) : Nat × Nat × Nat :=
  let xx := a.1 * b.1 % ecP
  let yy := a.2.1 * b.2.1 % ecP
  let zz := a.2.2 * b.2.2 % ecP
  let xy := (a.1 * b.2.1 + b.1 * a.2.1) % ecP
  let yz := (a.2.1 * b.2.2 + b.2.1 * a.2.2) % ecP
  let xz := (a.1 * b.2.2 + b.1 * a.2.2) % ecP
  let u := 3 * fSub xz (ecB * zz)
  let v := 3 * fSub (ecB * xz) (3 * zz + xx)
  let w := 3 * fSub xx zz
  let p := (yy + u) % ecP
  let m := fSub yy u
  (fSub (xy * p) (yz * v), (p * m + w * v) % ecP, (yz * m + xy * w) % ecP)

/-- k times a point, by the bits of `k` left. -/
def ecMul : Nat → Nat → Nat × Nat × Nat → Nat × Nat × Nat
  | 0, _, _ => (0, 1, 0)
  | n + 1, k, g => if k % 2 = 1 then ecAdd g (ecMul n (k / 2) (ecAdd g g)) else ecMul n (k / 2) (ecAdd g g)

/-- Is (x, y) a point of P-384? -/
def ecOn (x y : Nat) : Bool := decide (x < ecP) && decide (y < ecP) && y * y % ecP == (x * x * x + (ecP - 3) * x + ecB) % ecP

/-- ECDSA verification of `sig` (r then s, 48 bytes each, big-endian) over SHA-384 of `msg`, under `key` (X then Y). -/
def ecdsaOk (key msg sig : List Byte) : Bool :=
  let qx := beVal (key.take 48)
  let qy := beVal ((key.drop 48).take 48)
  let r := beVal (sig.take 48)
  let t := beVal ((sig.drop 48).take 48)
  ecOn qx qy && decide (0 < r) && decide (r < ecN) && decide (0 < t) && decide (t < ecN) &&
  (let w := invMod ecN t
   let e := beVal (sha384 msg)
   let s := ecAdd (ecMul 384 (e * w % ecN) (ecG.1, ecG.2, 1)) (ecMul 384 (r * w % ecN) (qx, qy, 1))
   decide (s.2.2 ≠ 0) && s.1 * invMod ecP s.2.2 % ecP % ecN == r)

end Sys2Proof.Machine
end

