-- ==== Sys2Proof/Machine/Debug.lean ====
section
/-! DEFINITION. Watchdog holds (09), halting, stepping and resuming contexts, comparators and freezes (18). -/
namespace Sys2Proof.Machine

/-! ## Watchdogs and drain limits below their commands (09 R360 to R363, 03 R117) -/

/-- The debugger holds context `c`: HALTED, or running a step of a halt (09 R363). -/
def heldByDbg (s : State) (c : Nat) : Bool :=
  let x := getCtx s c
  s.sec.active && s.sec.parcel.toNat == ctxParcel s c && (decide (x.st = .halted) || x.stepping || decide (x.haltReq = .step))

/-- The debugger holds a context of parcel `p`. -/
def dbgHeld (s : State) (p : Nat) : Bool := s.ctxs.any fun e => ctxParcel s e.1 == p && heldByDbg s e.1

/-- A function of parcel `p` is RUNNING or DRAINING (09 R360). -/
def parcelUp (s : State) (p : Nat) : Bool := (List.range (nFn s)).any fun f => fnParcel s f == p && isUp s f

/-- Address of a watchdog register of parcel `p`. -/
def wda (p off : Nat) : Nat := 0x500A00 + p * 0x10 + off

/-- The watchdog of parcel `p` counts: no hold of R360 or R363. -/
def wdCounts (s : State) (p : Nat) : Bool := parcelUp s p && !dbgHeld s p

/-- The window of parcel `p` in ns (09 R364). -/
def wdWindow (s : State) (p : Nat) : Nat := max 10 (fld (rg s (wda p 0)) 0 24) * 1000

/-- The window restarts in full (09 R361). -/
def wdRestart (s : State) (p : Nat) : State := { s with sec := { s.sec with wdStart := sput 0 s.sec.wdStart p (now s 0) } }

/-- Holds begin and end as functions and halts change: a hold that ends restarts the window (09 R360, R363). -/
def wdSync (s : State) : State :=
  (List.range 16).foldl (fun s p =>
    let run := wdCounts s p
    if run == s.sec.wdRun.contains p then s
    else if run then wdRestart { s with sec := { s.sec with wdRun := (List.range 16).filter fun q => q == p || s.sec.wdRun.contains q } } p
    else { s with sec := { s.sec with wdRun := s.sec.wdRun.filter fun q => q != p } }) s

/-- The last context of parcel `p` that a debugger held is released (09 R363). -/
def wdRelease (s : State) (p : Nat) : State :=
  if dbgHeld s p then s else wdSync (modRg s (wda p 4) fun w => setBit w 1 true)

/-- The drain limit of a function whose context the debugger releases restarts (03 R117). -/
def drainRestart (s : State) (f : Nat) : State :=
  modFn s f fun x => { x with drainAt := x.drainAt.map fun _ => now s 0 + BitVec.ofNat 64 (x.dlim.toNat * 1000000) }

/-! ## Freezes (18 R622) -/

/-- The sequencers of the unlocked parcel on tile `t` freeze and thaw by DBG_FRZ and DBG_FRZH. -/
def freezeSync (s : State) (t : Nat) : State :=
  let u := (unlockAt s t).map Prod.fst
  (List.range 32).foldl (fun s i =>
    let n := t * 32 + i
    let want := match u with
      | some p => (fnOfSeq s n).isSome && ownerOf s (fnOfSeq s n) == p &&
          (bit (rg s (ta t 0x5B0040)) i || (bit (rg s (ta t 0x5B0044)) i && anyHalted s t p))
      | none => false
    let x := getSeq s n
    if want then (if x.st = .stopped then s else modSeq (stopSeq s n) n fun x => { x with frozen := true })
    else if x.frozen then runSeq (modSeq s n fun x => { x with frozen := false }) n
    else s) s

/-! ## Halting (18 R610 to R616) -/

/-- DBG_HSTAT.CAUSE and BW of a halt cause. -/
def HaltCause.code : HaltCause → Nat × Nat
  | .none => (0, 0) | .request => (0, 0) | .step => (1, 0) | .brk => (2, 0) | .comparator n => (3, n) | .crossHalt => (4, 0) | .notice => (5, 0)

/-- DBG_HSTAT of a halt that has taken effect. -/
def haltStat (s : State) (c : Nat) (h : HaltCause) : State :=
  modRg s (ta (c / 256) 0x5B0008) fun w =>
    (w &&& 0x40000000) ||| fields [(31, 1, 1), (24, 3, h.code.1), (20, 4, h.code.2), (0, 8, c)]

/-- Context `c` is HALTED now. -/
def haltNow (s : State) (c : Nat) (h : HaltCause) : State :=
  let s := haltStat (modCtx s c fun x =>
    { x with st := .halted, haltReq := .none, stepping := false, stepEv := false, micro := none, got := [], rep := {},
             slotHeld := false }) c h
  wdSync (freezeSync s (c / 256))

/-- A halt of context `c` is asked for: at once in IDLE and PARKED, else at its next halt point (R611); BADOP where it is ignored. -/
def askHalt (s : State) (c : Nat) (h : HaltCause) : State :=
  let x := getCtx s c
  match x.st with
  | .free | .halted | .locked => modRg s (ta (c / 256) 0x5B0008) fun w => setBit w 30 true
  | .idle | .parked => haltNow s c h
  | _ => modCtx s c fun x => { x with haltReq := if x.haltReq = .none then h else x.haltReq }

/-- The contexts of parcel `p` on tile `t`. -/
def ctxsOf (s : State) (t p : Nat) : List Nat :=
  (span (t * 256) 256).filter fun c => (fnOfCtx s c).isSome && ctxParcel s c == p

/-- Halts every context of parcel `p` on tile `t` that can be halted (R616). -/
def haltAll (s : State) (t p : Nat) (h : HaltCause) : State :=
  (ctxsOf s t p).foldl (fun s c =>
    match (getCtx s c).st with
    | .free | .halted | .locked => s
    | _ => askHalt s c h) s

/-- A halt notice of parcel `p` to every other tile (R616, 13 R461). -/
def sendNotices (s : State) (t p : Nat) : State :=
  ((tilesOf s).filter (· != t)).foldl (fun s d => (sendFlit s t (ctrlFlitOf ctlHalt d p 0)).1) s

/-- The pending halt of context `c` takes effect (R611), with the cross-halt of R616. -/
def haltEffect (s : State) (c : Nat) : State :=
  let x := getCtx s c
  let h := x.haltReq
  let at_ := match x.st with
    | .ready | .active => !x.mid
    | .stalled => decide (x.wait = .release)
    | .idle => true
    | _ => false
  if h = .none || !at_ then s
  else
    let s := haltNow s c h
    let cross := match h with | .brk | .comparator _ => true | _ => false
    let ctl := rg s (ta (c / 256) 0x5B0000)
    let s := if cross && bit ctl 1 then
        let s := haltAll s (c / 256) (ctxParcel s c) .crossHalt
        if bit ctl 2 then sendNotices s (c / 256) (ctxParcel s c) else s
      else s
    reschedOf s c

/-- The state a released context returns to (R613). -/
def resumeState (s : State) (c : Nat) : CtxState :=
  let x := getCtx s c
  if !x.resident then .parked else if !x.act then .idle
  else if x.wait = .release && !x.rel.isEmpty then .stalled else .ready

/-- RESUME of a HALTED context (R613). -/
def resumeCtx (s : State) (c : Nat) : State :=
  let p := ctxParcel s c
  let st := resumeState s c
  let s := modCtx s c fun x => { x with st := st, haltReq := .none, stepping := false, stepEv := false,
                                        wait := if st = .stalled then x.wait else .none }
  let s := freezeSync (wdRelease s p) (c / 256)
  let s := match fnOfCtx s c with | some f => drainRestart s f | none => s
  reschedOf (nextFrame s c) c

/-- STEP of a HALTED context (R612). One without an activation starts one where a winner or a held start-of-frame is presentable,
and halts at its vector; else the step ends at once. An event for a quiet parcel is presentable in its slot alone (04 R173). -/
def stepCtx (s : State) (c : Nat) (ev : Bool) : State :=
  let x := getCtx s c
  if x.act then
    let st := resumeState s c
    reschedOf (modCtx s c fun x => { x with st := st, stepping := true, stepEv := ev, haltReq := .none }) c
  else if !x.resident then haltStat s c .step
  else
    let s := modCtx s c fun x => { x with st := .idle }
    let s := nextFrame s c
    let s := if (getCtx s c).st ≠ .idle then s
      else match (if isRunning s (fnOfCtx s c) && slotOk s c then ctxWinner s c else none) with
        | some n => activate (deliver s (c / 256) n (some (c % 256))) c ((rg s (ta (c / 256) (0x511004 + n * 16))).setWidth 20) (BitVec.ofNat 10 n)
        | none => s
    haltNow s c .step

/-- One operation of DBG_CTXCTL on context `c` (R610). -/
def ctxOp (s : State) (c op : Nat) (ev : Bool) : State :=
  let x := getCtx s c
  let bad := modRg s (ta (c / 256) 0x5B0008) fun w => setBit w 30 true
  match op with
  | 1 => askHalt s c .request
  | 2 => if x.st = .halted then resumeCtx s c else bad
  | 3 => if x.st = .halted then stepCtx s c ev else bad
  | _ => s

/-- A write of DBG_CTXCTL (R610); a context that no function binds is parcel 0's (05 R195). -/
def ctxCtl (s : State) (t : Nat) (v : Word) : State × Done :=
  match unlockAt s t with
  | none => (s, .refused)
  | some (p, _) =>
    let op := fld v 30 2
    if bit v 28 then ((ctxsOf s t p).foldl (fun s c => ctxOp s c op (bit v 29)) s, .ok)
    else
      let c := t * 256 + fld v 0 8
      if ctxParcel s c != p then (s, .refused)
      else (ctxOp s c op (bit v 29), .ok)

/-- The unlock of parcel `p` that tile `t` enforced has ended (04 R166, R613, R618, R622): contexts resume, comparators and
freezes clear. -/
def releaseDbg (s : State) (t p : Nat) : State :=
  let s := (ctxsOf s t p).foldl (fun s c =>
    if (getCtx s c).st = .halted then resumeCtx s c
    else modCtx s c fun x => { x with haltReq := .none, stepping := false, stepEv := false }) s
  let s := { s with regs := s.regs.filter fun e => !(decide (ta t 0x5B0100 ≤ e.1) && decide (e.1 < ta t 0x5B0200)) }
  let s := setRg (setRg (modRg s (ta t 0x5B000C) fun _ => 0) (ta t 0x5B0040) 0) (ta t 0x5B0044) 0
  freezeSync s t

/-! ## Comparators (18 R618 to R621) -/

/-- A fetch or access that comparators look at. -/
structure Watch where
  exec : Bool := false
  read : Bool := false
  write : Bool := false
  addr : Nat
  size : Nat
  data : Word := 0

/-- Comparator `n` of tile `t`: its registers. -/
def bwCfg (s : State) (t n : Nat) : Word := rg s (ta t (0x5B0100 + n * 16))
def bwLo (s : State) (t n : Nat) : Word := rg s (ta t (0x5B0104 + n * 16))
def bwHi (s : State) (t n : Nat) : Word := rg s (ta t (0x5B0108 + n * 16))

/-- LINK of comparator `n`: 3 is taken as 0, and the last comparator has none (R621). -/
def bwLink (s : State) (t n : Nat) : Nat := let l := fld (bwCfg s t n) 27 2; if l = 3 || n = 15 then 0 else l

/-- Comparator `n` by itself matches (R618, R619). -/
def bwOwn (s : State) (c n : Nat) (w : Watch) : Bool :=
  let t := c / 256
  let cfg := bwCfg s t n
  let lo := (bwLo s t n).toNat; let hi := (bwHi s t n).toNat
  let inRange := decide (lo < w.addr + w.size) && decide (w.addr ≤ hi)
  bit cfg 31 && fld cfg 16 4 == ctxParcel s c && bit cfg (20 + (getCtx s c).priv.toNat) &&
  (!bit cfg 23 || fld cfg 0 8 == c % 256) &&
  (match fld cfg 24 3 with
   | 0 => w.exec && inRange
   | 1 => w.read && inRange
   | 2 => w.write && inRange
   | 3 => (w.read || w.write) && inRange
   | _ => false)

/-- A KIND 4 partner matches the datum (R621). -/
def bwValue (s : State) (t n : Nat) (w : Watch) : Bool :=
  bit (bwCfg s t n) 31 && fld (bwCfg s t n) 24 3 == 4 && (w.read || w.write) && (w.data &&& bwHi s t n) == (bwLo s t n &&& bwHi s t n)

/-- Comparator `n` matches with its AND partner (R621). -/
def bwMatch (s : State) (c n : Nat) (w : Watch) : Bool :=
  bwOwn s c n w && (bwLink s (c / 256) n != 1 || bwOwn s c (n + 1) w || bwValue s (c / 256) (n + 1) w)

/-- Comparator `n` is armed by its predecessor's SEQ (R621). -/
def bwArmed (s : State) (t n : Nat) : Bool := bit (rg s (ta t 0x5B000C)) (16 + n)

/-- One comparator takes one fetch or access: MATCH, BWHIT, arming; the action to take. -/
def bwOne (c : Nat) (w : Watch) (r : State × List (Nat × Nat)) (n : Nat) : State × List (Nat × Nat) :=
  let s := r.1
  let t := c / 256
  let prev := if n = 0 then 0 else bwLink s t (n - 1)
  if prev = 1 || !bwMatch s c n w || (prev = 2 && !bwArmed s t n) then r
  else
    let s := countCtx (modRg s (ta t 0x5B000C) fun w => setBit w n true) c 0x12
    if bwLink s t n = 2 then (modRg s (ta t 0x5B000C) fun w => setBit w (17 + n) true, r.2)
    else
      let s := if prev = 2 then modRg s (ta t 0x5B000C) fun w => setBit w (16 + n) false else s
      let act := fld (bwCfg s t n) 29 2
      (s, if act ≤ 1 then r.2 ++ [(n, act)] else r.2)

/-- Every comparator of the context's tile takes a fetch or access (R618 to R621): the comparators that halt (ACT 0) or raise
breakpoint (ACT 1), with no unlock in force none. -/
def bwTake (s : State) (c : Nat) (w : Watch) : State × List (Nat × Nat) :=
  if (unlockAt s (c / 256)).isNone then (s, []) else (List.range 16).reverse.foldl (bwOne c w) (s, [])

/-- The halts among the actions are asked for; the comparator of a breakpoint is answered. -/
def bwAct (s : State) (c : Nat) (acts : List (Nat × Nat)) : State × Option Nat :=
  let s := match acts.find? fun a => a.2 == 0 with | some a => askHalt s c (.comparator a.1) | none => s
  (s, (acts.find? fun a => a.2 == 1).map Prod.fst)

/-! ## Registers (18 R631) -/

/-- Bits of the contexts of word `i` of DBG_HALTED that the unlocked parcel owns and that are HALTED. -/
def haltedWord (s : State) (t i : Nat) : Word :=
  match unlockAt s t with
  | some (p, _) => ofBits 32 ((List.range 32).filter fun j =>
      let c := t * 256 + 32 * i + j
      decide ((getCtx s c).st = .halted) && ctxParcel s c == p)
  | none => 0

/-- Bits of the sequencers that the unlocked parcel owns. -/
def seqMask (s : State) (t : Nat) : Word :=
  match unlockAt s t with
  | some (p, _) => ofBits 32 ((List.range 32).filter fun i => (fnOfSeq s (t * 32 + i)).isSome && ownerOf s (fnOfSeq s (t * 32 + i)) == p)
  | none => 0

/-- Rights and codes of the debug registers; `o` the offset from 0x5B_0000. -/
def dbgDesc (o : Nat) : Option Desc :=
  let d : Desc := { rd := { d := true, every := true }, wr := { d := true, every := true } }
  if o = 0 then some { d with rw := msk 0 3 }
  else if o = 4 then some d
  else if o = 8 then some { d with w1c := msk 30 2 }
  else if o = 0xC then some { d with w1c := msk 0 16 }
  else if 0x10 ≤ o && o < 0x30 && o % 4 = 0 then some d
  else if o = 0x40 || o = 0x44 then some { d with rw := msk 0 32 }
  else if 0x100 ≤ o && o < 0x200 then
    match o % 16 with
    | 0 => some { d with rw := msk 31 1 ||| msk 20 11 ||| msk 0 8 }
    | 4 => some { d with rw := msk 0 32 }
    | 8 => some { d with rw := msk 0 32 }
    | _ => none
  else none

/-- Reads. -/
def dbgRead (s : State) (d : Desc) (acc : Acc) (t o : Nat) : State × Word :=
  if o = 4 then (s, 0)
  else if 0x10 ≤ o && o < 0x30 then (s, haltedWord s t ((o - 0x10) / 4))
  else if o = 0x40 || o = 0x44 then (s, rg s (ta t (0x5B0000 + o)) &&& seqMask s t)
  else plainRead s d acc (ta t (0x5B0000 + o))

/-- An enabled comparator of KIND 0 with these bounds breaks R619: bits outside 19:2 must be 0. -/
def bwBad (cfg lo hi : Word) : Bool :=
  bit cfg 31 && fld cfg 24 3 == 0 && decide ((lo ||| hi) &&& ~~~(msk 2 18) ≠ 0)

/-- A write of a comparator register: the parcel unlocked when it is enabled (R618); a reserved KIND is ignored with BADOP (R619). One that
would leave an enabled comparator of KIND 0 with a bound outside bits 19:2 is refused with BADOP (00 R24): DESIGN CHOICE, R619 does not
say when it is judged (notes/assumptions/40.md). -/
def bwWrite (s : State) (d : Desc) (t o : Nat) (v : Word) : State × Done :=
  let a := ta t (0x5B0000 + o)
  let n := (o - 0x100) / 16
  let badop := modRg s (ta t 0x5B0008) fun w => setBit w 30 true
  let cfg := if o % 16 = 0 then v else bwCfg s t n
  let lo := if o % 16 = 4 then v else bwLo s t n
  let hi := if o % 16 = 8 then v else bwHi s t n
  if o % 16 = 0 && decide (5 ≤ fld v 24 3) then (badop, .ok)
  else if bwBad cfg lo hi then (badop, .refused)
  else
    let s := plainWrite s d a v
    (match (if o % 16 = 0 then unlockAt s t else none) with
     | some (p, _) => modRg s a fun w => setFld w 16 4 p
     | none => s, .ok)

/-- Writes. -/
def dbgWrite (s : State) (d : Desc) (t o : Nat) (v : Word) : State × Done :=
  if o = 4 then ctxCtl s t v
  else if 0x10 ≤ o && o < 0x30 then (s, .ok)
  else if o = 0x40 || o = 0x44 then
    let m := seqMask s t
    (freezeSync (modRg s (ta t (0x5B0000 + o)) fun w => (w &&& ~~~m) ||| (v &&& m)) t, .ok)
  else if 0x100 ≤ o then bwWrite s d t o v
  else (plainWrite s d (ta t (0x5B0000 + o)) v, .ok)

end Sys2Proof.Machine
end

