-- ==== Sys2Proof/Machine/Pmc.lean ====
section
/-! DEFINITION. Performance counters and samplers (18 R623 to R632). -/
namespace Sys2Proof.Machine

/-- Keys and addresses of counter `i` and sampler `e` of tile `t`. -/
def pmcKey (t i : Nat) : Nat := t * 144 + i
def pmcA (t i off : Nat) : Nat := ta t (0x5A0000 + i * 0x20 + off)
def smpKey (t e : Nat) : Nat := t * 16 + e
def smpA (t e off : Nat) : Nat := ta t (0x5A3000 + e * 0x10 + off)

/-- The owner of a claimed unit; parcel 0 while unclaimed (R623). -/
def claimOwner (o : Option (BitVec 4)) : Nat := (o.map BitVec.toNat).getD 0

/-- Counter `i` changes owner: zero, its configuration at the reset values (R623, 04 R160). -/
def pmcReown (s : State) (t i : Nat) (o : Option (BitVec 4)) : State :=
  let s := setPmc s (pmcKey t i) { owner := o }
  setRg (setRg s (pmcA t i 4) (regReset (pmcA t i 4))) (pmcA t i 8) (regReset (pmcA t i 8))

/-- Sampler `e` changes owner. -/
def smpReown (s : State) (t e : Nat) (o : Option (BitVec 4)) : State :=
  let s := setSmp s (smpKey t e) { owner := o }
  setRg (setRg s (smpA t e 4) 0) (smpA t e 8) (regReset (smpA t e 8))

/-- May the reader claim (R623): S, H or D, not W? -/
def mayClaim (acc : Acc) : Bool := acc.effect && (acc.kind != 0 || decide (acc.priv ≤ 1))

/-- A read of PMC_CLAIMi (R623). -/
def pmcClaim (s : State) (acc : Acc) (t i : Nat) : State × Word :=
  match (getPmc s (pmcKey t i)).owner with
  | some q => (s, if q.toNat = acc.parcel then 0 else 1)
  | none => (if mayClaim acc then pmcReown s t i (some (BitVec.ofNat 4 acc.parcel)) else s, 0)

/-- A read of PMC_SMPe_CLAIM (R628). -/
def smpClaim (s : State) (acc : Acc) (t e : Nat) : State × Word :=
  match (getSmp s (smpKey t e)).owner with
  | some q => (s, if q.toNat = acc.parcel then 0 else 1)
  | none => (if mayClaim acc then smpReown s t e (some (BitVec.ofNat 4 acc.parcel)) else s, 0)

/-- Copies every counter of parcel `p` on tile `t` at one instant (R627). -/
def snapshot (s : State) (t p : Nat) : State :=
  let s := s.pmcs.foldl (fun s e =>
    if e.1 / 144 == t && claimOwner e.2.owner == p then modPmc s e.1 fun x => { x with snap := x.cnt } else s) s
  let a := ta t (0x5A2000 + p * 0x10)
  setRg (modRg s a fun w => setBit (setBit w 2 true) 1 false) (a + 0xC) (now32 s t)

/-- PMC_SNAPp_AT. -/
def snapAt (s : State) (t p : Nat) : DWord :=
  (rg s (ta t (0x5A2008 + p * 0x10))).setWidth 64 <<< 32 ||| (rg s (ta t (0x5A2004 + p * 0x10))).setWidth 64

/-- A write of PMC_SNAPp_CTL (R627). -/
def snapCtl (s : State) (t p : Nat) (v : Word) : State :=
  let a := ta t (0x5A2000 + p * 0x10)
  let s := modRg s a fun w => (w &&& ~~~(v &&& 0xC)) &&& ~~~2#32 ||| (v &&& 2)
  let s := if bit v 1 && atOrAfter (now s t) (snapAt s t p) then modRg s a fun w => setBit w 3 true else s
  if bit v 0 then
    let armed := bit v 1
    modRg (snapshot s t p) a fun w => setBit w 1 armed
  else s

/-- The armed time has come (R627). -/
def snapDue (s : State) (t p : Nat) : State :=
  if bit (rg s (ta t (0x5A2000 + p * 0x10))) 1 && atOrAfter (now s t) (snapAt s t p) then snapshot s t p else s

/-- A write of PMC_CNTi_HI with the held _LO (R626). -/
def cntWrite (s : State) (acc : Acc) (t i : Nat) (v : Word) : State :=
  let lo := (heldLo s acc (pmcA t i 0xC)).getD ((getPmc s (pmcKey t i)).cnt.setWidth 32)
  let s := setHeldLo s acc (pmcA t i 0xC) none
  modPmc s (pmcKey t i) fun x => { x with cnt := BitVec.ofNat 48 (fld v 0 16 * 2 ^ 32 + lo.toNat) }

/-- A write of n to PMC_SMPe_STAT.DONE (R628). -/
def smpDone (s : State) (t e n : Nat) : State :=
  modSmp s (smpKey t e) fun x => { x with count := x.count - n }

/-- A source that a counter or sampler of parcel `own` may raise (R625). -/
def pmcSrcOk (s : State) (t own n : Nat) : Bool := n == 0x3FF || (srcExists t n && srcOwner s t n == own)

/-- Rights and codes of the counter registers; `o` the offset from 0x5A_0000. -/
def pmcDesc (s : State) (t o : Nat) : Option Desc :=
  if o < 0x1200 then
    let own := claimOwner (getPmc s (pmcKey t (o / 0x20))).owner
    let d : Desc := { own, rd := rSWHD, wr := rSHD }
    match o % 0x20 with
    | 0x00 => some { d with rd := { rSWHD with every := true } }
    | 0x04 => some { d with rw := 0xC003FFFF, w1c := msk 29 1 }
    | 0x08 => some { d with rw := msk 31 1 ||| msk 0 27 }
    | 0x0C => some d
    | 0x10 => some d
    | 0x14 => some d
    | 0x18 => some d
    | _ => none
  else if 0x2000 ≤ o && o < 0x2100 && o % 4 = 0 then
    let d : Desc := { own := (o - 0x2000) / 16, rd := rSWHD, wr := rSHD }
    some (if o % 16 = 0xC then d else { d with rw := msk 0 32 })
  else if 0x3000 ≤ o && o < 0x3100 then
    let d : Desc := { own := claimOwner (getSmp s (smpKey t ((o - 0x3000) / 16))).owner, rd := rSWHD, wr := rSHD }
    match o % 16 with
    | 0x0 => some { d with rd := { rSWHD with every := true } }
    | 0x4 => some { d with rw := msk 0 32 }
    | 0x8 => some { d with rw := msk 0 10 }
    | 0xC => some d
    | _ => none
  else if 0x4000 ≤ o && o < 0x8000 && o % 4 = 0 then
    some { own := claimOwner (getSmp s (smpKey t ((o - 0x4000) / 0x400))).owner, rd := rSWHD, wr := rSHD }
  else none

/-- One word of a sample entry. -/
def Sample.word (x : Sample) (w : Nat) : Word := match w with | 0 => x.w0 | 1 => x.w1 | 2 => x.w2 | _ => x.w3

/-- Reads. -/
def pmcRead (s : State) (d : Desc) (acc : Acc) (t o : Nat) : State × Word :=
  let a := ta t (0x5A0000 + o)
  if o < 0x1200 then
    let i := o / 0x20
    let x := getPmc s (pmcKey t i)
    match o % 0x20 with
    | 0x00 => pmcClaim s acc t i
    | 0x0C => (s, x.cnt.setWidth 32)
    | 0x10 => (s, (x.cnt >>> 32).setWidth 32)
    | 0x14 => (s, x.snap.setWidth 32)
    | 0x18 => (s, (x.snap >>> 32).setWidth 32)
    | _ => plainRead s d acc a
  else if o < 0x3000 then plainRead s d acc a
  else if o < 0x4000 then
    let e := (o - 0x3000) / 16
    let x := getSmp s (smpKey t e)
    match o % 16 with
    | 0x0 => smpClaim s acc t e
    | 0xC => (s, fields [(31, 1, x.ovr.toNat), (16, 7, x.count), (0, 6, x.head.toNat)])
    | _ => plainRead s d acc a
  else (s, (sget {} (getSmp s (smpKey t ((o - 0x4000) / 0x400))).ring (o % 0x400 / 16)).word (o % 16 / 4))

/-- Writes; the snapshots, TIME and the sample entries ignore them (00 R14). -/
def pmcWrite (s : State) (d : Desc) (acc : Acc) (t o : Nat) (v : Word) : State × Done :=
  let a := ta t (0x5A0000 + o)
  if 0x4000 ≤ o then (s, .ok)
  else if o < 0x1200 then
    let i := o / 0x20
    match o % 0x20 with
    | 0x00 =>
      (if bit v 0 && (getPmc s (pmcKey t i)).owner == some (BitVec.ofNat 4 acc.parcel) then pmcReown s t i none else s, .ok)
    | 0x04 => if pmcSrcOk s t d.own (fld v 0 10) then (plainWrite s d a v, .ok) else (s, .refused)
    | 0x0C => (setHeldLo s acc a (some v), .ok)
    | 0x10 => (cntWrite s acc t i v, .ok)
    | 0x14 => (s, .ok)
    | 0x18 => (s, .ok)
    | _ => (plainWrite s d a v, .ok)
  else if o < 0x3000 then
    let p := (o - 0x2000) / 16
    match o % 16 with
    | 0x0 => (snapCtl s t p v, .ok)
    | 0x4 => (setHeldLo s acc a (some v), .ok)
    | 0xC => (s, .ok)
    | _ =>
      let s := match heldLo s acc (a - 4) with | some lo => setHeldLo (setRg s (a - 4) lo) acc (a - 4) none | none => s
      (setRg s a v, .ok)
  else
    let e := (o - 0x3000) / 16
    match o % 16 with
    | 0x0 =>
      (if bit v 0 && (getSmp s (smpKey t e)).owner == some (BitVec.ofNat 4 acc.parcel) then smpReown s t e none else s, .ok)
    | 0x8 => if pmcSrcOk s t d.own (fld v 0 10) then (plainWrite s d a v, .ok) else (s, .refused)
    | 0xC =>
      (modSmp (smpDone s t e (fld v 8 7)) (smpKey t e) fun x => { x with ovr := x.ovr && !bit v 31 }, .ok)
    | _ => (plainWrite s d a v, .ok)

end Sys2Proof.Machine
end

