-- ==== Sys2Proof/Machine/Mirror.lean ====
section
/-! DEFINITION. Code memory, writable stores and their mirror (08 R288 to R294, 13 R480 to R483, 14 R493 to R496). -/
namespace Sys2Proof.Machine

/-- The partner of tile `t`: the peer of link 0 (13 R456). -/
def partner (t : Nat) : Nat := t ^^^ 1

/-- Key of the mirror copy of block `b` of tile `t`: code blocks 0 to 16383, then 685 blocks for each quad's store. The copy
stands in the partner's mirror store. -/
def mirKey (t b : Nat) : Nat := t * 32768 + b

/-- Block `i` of quad `q`'s writable store, as mirror block number. -/
def wsBlock (q i : Nat) : Nat := 16384 + q * 685 + i

/-- Writable microword `i` (from 0x1800) of quad `q` of tile `t`. -/
def uwKey (t q i : Nat) : Nat := (t * 4 + q) * 2048 + i

/-- Decode entry 0xE0 + `i` of quad `q` of tile `t`. -/
def decKey (t q i : Nat) : Nat := (t * 4 + q) * 32 + i

/-- Cluster address of code-memory byte `b` of tile `t`. -/
def codeAddr (t b : Nat) : Nat := ta t (0x400000 + b)

/-- The 64 bytes of block `b` of tile `t` as its primary store holds it (R290). -/
def primaryBlock (s : State) (t b : Nat) : BitVec 512 :=
  if b < 16384 then BitVec.ofNat 512 (codeRead s (codeAddr t (b * 64)) 64)
  else
    let q := (b - 16384) / 685
    let i := (b - 16384) % 685
    if i < 683 then
      let u (j : Nat) : UWord := if 3 * i + j < 2048 then getUWord s (uwKey t q (3 * i + j)) else {}
      BitVec.ofNat 512 ((u 0).w.toNat + (u 1).w.toNat * 2 ^ 160 + (u 2).w.toNat * 2 ^ 320 +
        ((u 0).tag.toNat + (u 1).tag.toNat * 16 + (u 2).tag.toNat * 256) * 2 ^ 480)
    else
      BitVec.ofNat 512 ((List.range 16).foldl (fun v j => v + (getDec s (decKey t q ((i - 683) * 16 + j))).w.toNat * 2 ^ (32 * j)) 0)

/-- Block `b` of tile `t` written whole from its 64 bytes; the placing functions stay recorded (R291). -/
def writeBlock (s : State) (t b : Nat) (v : BitVec 512) : State :=
  if b < 16384 then { s with code := writeBytes 0 s.code (codeAddr t (b * 64)) (leBytes 64 v.toNat) }
  else
    let q := (b - 16384) / 685
    let i := (b - 16384) % 685
    if i < 683 then
      (List.range 3).foldl (fun s j =>
        if 3 * i + j < 2048 then
          modUWord s (uwKey t q (3 * i + j)) fun x =>
            { x with w := BitVec.ofNat 160 (v.toNat >>> (160 * j)), tag := BitVec.ofNat 4 (v.toNat >>> (480 + 4 * j)) }
        else s) s
    else
      (List.range 16).foldl (fun s j =>
        modDec s (decKey t q ((i - 683) * 16 + j)) fun x => { x with w := BitVec.ofNat 32 (v.toNat >>> (32 * j)) }) s

/-! ## Scrub positions (14 R495): keys of `State.badBlk` -/

/-- Place in the scrub's sequence of block `b` of tile `t`'s own code memory and writable stores. -/
def posOf (b : Nat) : Nat := if b < 16384 then 65536 + b else 98304 + (b - 16384)

/-- Place in the scrub's sequence of the mirror copy that tile `t` holds of its partner's block `b`. -/
def mirPos (b : Nat) : Nat := if b < 16384 then 81920 + b else 101044 + (b - 16384)

/-- The context (local number) of block `i` of the context file, eight blocks for each. -/
def ctxPos (c : Nat) : Nat := 103784 + c * 8

/-- Blocks of one pass. -/
def scrubLen : Nat := 106856

/-- The blocks that have a mirror copy. -/
def mirBlocks : Nat := 16384 + 4 * 685

/-- Block and half that AUX names. -/
def auxBlock (fl : Flit) : Nat := fld fl.aux 8 24
def auxHalf (fl : Flit) : Nat := fld fl.aux 0 1

/-- One half of a block under a key: the whole block once its second half has come. -/
def takeHalf (s : State) (t key : Nat) (fl : Flit) : State × Option (BitVec 512) :=
  let x := getTile s t
  let rest := x.half.filter fun e => e.1 != key
  if auxHalf fl = 0 then (setTile s t { x with half := rest ++ [(key, fl.payload)] }, none)
  else match x.half.find? fun e => e.1 == key with
    | some e => (setTile s t { x with half := rest }, some (BitVec.ofNat 512 (e.2.toNat + fl.payload.toNat * 2 ^ 256)))
    | none => (s, none)

/-- MIRWR (R480): from the partner, into the mirror store. -/
def takeMirwr (s : State) (t : Nat) (fl : Flit) : State :=
  let b := auxBlock fl
  if fl.src.toNat ≠ partner t || mirBlocks ≤ b then s
  else match takeHalf s t (b * 2) fl with
    | (s, some v) => markGood (setMirror s (mirKey (partner t) b) { data := v, placed := true }) t (mirPos b)
    | (s, none) => s

/-- The mirror copy of block `b` of tile `t` is taken from its primary (R327, R480): two MIRWR flits to the partner. Without a route nothing
is written there. -/
def mirrorPut (s : State) (t b : Nat) : State :=
  let v := (primaryBlock s t b).toNat
  (List.range 2).foldl (fun s h =>
    (carryFlit s t { mkFlit 7 2 (partner t) with len := 32, aux := BitVec.ofNat 32 (b * 256 + h), payload := BitVec.ofNat 256 (v / 2 ^ (256 * h)) }
      fun fl s => takeMirwr s (partner t) fl).1) s

/-- Context `c` was saved or zeroed: its blocks of the context file hold a correct CRC (04 R158, 05 R181, 14 R493). -/
def ctxWritten (s : State) (c : Nat) : State := (List.range 8).foldl (fun s i => markGood s (c / 256) (ctxPos (c % 256) + i)) s

/-- The partner of tile `t` can answer a re-send of block `b` of tile `t` with a good copy (R482). A block of a writable store counts as placed
from the start on, which checks each quad's whole store against its mirror (03 R106 step 8): notes/assumptions/35.md -/
def mirrorGood (s : State) (t b : Nat) : Bool :=
  ((getMirror s (mirKey t b)).placed || decide (16384 ≤ b)) && powered s (partner t) domBUF && !isBad s (partner t) (mirPos b)

/-- Tile `t` can answer a request for its own block `b`, by which the partner repairs its mirror copy (R483). -/
def primaryGood (s : State) (t b : Nat) : Bool :=
  powered s t domBUF && (decide (b < 16384) || powered s t (domQ ((b - 16384) / 685))) && !isBad s t (posOf b)

/-- A route from tile `t` to its partner exists. -/
def partnerRoute (s : State) (t : Nat) : Bool := (routeOf s t (partner t)).isSome

/-- Tile `t` asks its partner for a block, once (R481, R483; 19 R643): `key` as `Tile.resend` holds it. Without a route the request waits. -/
def askPartner (s : State) (t key : Nat) : State :=
  if (getTile s t).resend.any fun x => x.1 == key then s
  else
    let s := modTile s t fun x => { x with resend := x.resend ++ [(key, x.ns)] }
    (sendFlit s t { mkFlit 8 2 (partner t) with aux := BitVec.ofNat 32 (key % 32768 * 256 + if 65536 ≤ key then 4 else 0) }).1

/-- Unit code of a block's store (14 R508). -/
def blockUnit (b : Nat) : Nat := if b < 16384 then 0x02 else 0x03

/-- Cluster address that a record names for a block; for the writable store the block's place in the control-store view. -/
def blockAddr (t b : Nat) : Nat :=
  if b < 16384 then codeAddr t (b * 64)
  else ta t (0x640000 + (b - 16384) / 685 * 0x10000 + (b - 16384) % 685 * 0x60)

/-- The parcel of a block: the tag of its code block, of its first microword, or 0. -/
def blockParcel (s : State) (t b : Nat) : Nat :=
  if b < 16384 then (getCodeTag s (t * 16384 + b)).tag.toNat
  else if (b - 16384) % 685 < 683 then (getUWord s (uwKey t ((b - 16384) / 685) (3 * ((b - 16384) % 685)))).tag.toNat else 0

/-- The class 0x06 record of a masked re-send of block `b` (14 R493, R509). -/
def maskedRec (s : State) (t b : Nat) : FaultRec :=
  { outcome := 0, cls := 0x06, parcel := blockParcel s t b, unit := blockUnit b, addr := blockAddr t b }

/-- The class 0x07 record of a block without a good copy. -/
def lostRec (s : State) (t b : Nat) : FaultRec :=
  { outcome := 1, cls := 0x07, parcel := blockParcel s t b, unit := blockUnit b, addr := blockAddr t b, ack := true }

end Sys2Proof.Machine
end

