-- ==== Sys2Proof/Machine/Keys.lean ====
section
/-! DEFINITION. Tile keys on their way (04 R136, R137): delivery, and the messages of tile 0 under a tile key. -/
namespace Sys2Proof.Machine

/-- The tag of a CTRL message under a tile key: HMAC-SHA-384 over its two words (notes/assumptions/6.md). -/
def ctlTag (key : BitVec 384) (addr aux : Word) : BitVec 384 :=
  digestBits (hmac (leBytes 48 key.toNat) (leBytes 4 addr.toNat ++ leBytes 4 aux.toNat))

/-- The two flits of an authenticated CTRL message: bytes 0 to 31 of its tag, then bytes 32 to 47. -/
def authFlits (key : BitVec 384) (fl : Flit) : List Flit :=
  let tag := (ctlTag key fl.addr fl.aux).toNat
  [{ fl with len := 32, more := true, payload := BitVec.ofNat 256 tag }, { fl with len := 16, payload := BitVec.ofNat 256 (tag / 2 ^ 256) }]

/-- The tile key that tile 0 holds for tile `t`. -/
def tileKey (s : State) (t : Nat) : Option (BitVec 384) := (s.sec.tileKeys.find? fun k => k.1 == t).map Prod.snd

/-- Half of the tile key (04 R137): the payload carries bytes 0 to 31 of the key, then bytes 32 to 47. -/
def takeKey (s : State) (t : Nat) (fl : Flit) : State :=
  let x := getTile s t
  if fl.src ≠ 0 then s
  else if ctlHi fl = 0 then setTile s t { x with half := (x.half.filter fun e => e.1 != 0x800000) ++ [(0x800000, fl.payload)] }
  else match x.half.find? fun e => e.1 == 0x800000 with
    | some e => setTile s t { x with half := x.half.filter fun e => e.1 != 0x800000,
                                     key := some (BitVec.ofNat 384 (e.2.toNat + fl.payload.toNat % 2 ^ 128 * 2 ^ 256)) }
    | none => s

/-- A tile that takes its key opens the links towards it (04 R137). -/
def keyTaken (s : State) (t : Nat) (fl : Flit) : State :=
  (List.range 4).foldl (fun s k => drainLink s (peerOf s.nTiles t k) (peerLink s.nTiles t k)) (takeKey s t fl)

/-- Tile 0 sends tile `t` its key: its bytes 0 to 31, then bytes 32 to 47 (R137). -/
def deliverKey (s : State) (t : Nat) : State :=
  match tileKey s t with
  | none => s
  | some k =>
    (List.range 2).foldl (fun s h =>
      (carryFlit s 0 { ctrlFlitOf ctlKey t h 0 with len := if h = 0 then 32 else 16, payload := BitVec.ofNat 256 (k.toNat / 2 ^ (256 * h)) }
        fun fl s => keyTaken s t fl).1) s

/-- Every tile but tile 0 is sent its key, those that a link of tile 0 reaches first: a tile forwards another's key after it holds its own
(R137). One that no route reaches gets none. -/
def deliverKeys (s : State) : State :=
  let ts := (tilesOf s).drop 1
  let near (t : Nat) : Bool := match routeOf s 0 t with | some (_, none) => true | _ => false
  (ts.filter near ++ ts.filter fun t => !near t).foldl deliverKey s

/-- One authenticated message of tile 0, the flit `fl`, with effect `eff` where it arrives at once. -/
def carryAuth (s : State) (k : BitVec 384) (fl : Flit) (eff : State → State) : State :=
  (authFlits k fl).foldl (fun s x => (carryFlit s 0 x fun _ s => if x.more then s else eff s).1) s

/-- The grant in force, for the tiles: bit 15 in force, 8:11 parcel, 2:0 scope. -/
def unlWord (s : State) : Word := fields [(15, 1, s.sec.active.toNat), (8, 4, s.sec.parcel.toNat), (0, 3, s.sec.scope.toNat)]

/-- The grants and the unlock in force go to a tile that has woken (R161, R165; 19 R642). -/
def grantTile (s : State) (t : Nat) : State :=
  match tileKey s t with
  | none => s
  | some k =>
    let s := (List.range 16).foldl (fun s p =>
      let w := rg s (0x5C0300 + p * 4)
      if w = rg s (ta t (0x5C0300 + p * 4)) then s
      else carryAuth s k (ctrlFlitOf ctlGrant t p w) fun s => setRg s (ta t (0x5C0300 + p * 4)) w) s
    if !s.sec.active then s
    else carryAuth s k (ctrlFlitOf ctlUnlock t 0 (unlWord s)) fun s =>
      modTile s t fun x => { x with unl := some (s.sec.parcel, s.sec.scope) }

end Sys2Proof.Machine
end

