-- ==== Sys2Proof/Machine/Power.lean ====
section
/-! DEFINITION. Power domains (19): commands, acknowledges, wakes, what is lost and restored. -/
namespace Sys2Proof.Machine

/-- The registers of the power controller. -/
def pwrStatA (t : Nat) : Nat := ta t 0x590000

/-- The last command ends with RES (R645). -/
def pwrRes (s : State) (t res : Nat) : State := modRg s (pwrStatA t) fun w => setFld w 28 4 res

/-- The domains that one command switches: BUF takes SEC and LINK with it (R633). -/
def domsOf (d : Nat) : List Nat := if d = domBUF then [domSEC, domBUF, domLINK] else [d]

/-- Does quad `q` of tile `t` hold a resident context (05 R218)? -/
def quadResident (s : State) (t q : Nat) : Bool :=
  s.ctxs.any fun e => e.1 / 256 == t && e.2.resident && engOf s e.1 / 4 == q

/-- A function that binds a context, region, mailbox, frame port, pair or sequencer of tile `t` is not UNLOADED (R633). -/
def tileInUse (s : State) (t : Nat) : Bool :=
  (List.range (nFn s)).any fun f =>
    !decide (fnState s f = .unloaded) &&
    (match fnDesc s f with
     | some d =>
       (span (t * 256) 256).any d.ctxs.testBit || (d.regions.any fun r => r.tile == t) || (span (t * 32) 32).any d.mbxs.testBit ||
       (span (t * 8) 8).any d.ports.testBit || (span (t * 8) 8).any d.pairs.testBit || (span (t * 32) 32).any d.psqs.testBit
     | none => false)

/-- A mailbox of tile `t` holds a message (15 R540). -/
def tileHasMsg (s : State) (t : Nat) : Bool := (span (t * 32) 32).any fun m => !(getMbx s m).msgs.isEmpty

/-- The check of a power-down command on tile `t` (R636): the first refusal, in the rule's order. SEC and LINK are powered down
with BUF only, so a command that names them alone names a domain that may not be powered down. -/
def downRefusal (s : State) (t dom tile : Nat) : Option Nat :=
  if 10 ≤ dom || tile ≠ 0 then some 8
  else if dom = 0 || dom = domSEC || dom = domLINK || (t = 0 && dom = domBUF) then some 1
  else if 2 ≤ dom && dom ≤ 5 && quadResident s t (dom - 2) then some 2
  else if dom = domPIN && (span (t * 32) 32).any fun n => decide ((getSeq s n).st ≠ .stopped) then some 3
  else if dom = domBUF then
    if (List.range 6).any fun i => bit (getTile s t).req (2 + i) || bit (getTile s t).ack (2 + i) then some 6
    else if tileInUse s t then some 5
    else if tileHasMsg s t then some 4
    else none
  else none

/-- A link that leaves service, or begins to train, starts again with nothing on its way. -/
def Link.fresh_ (l : Link) (st : LinkState) : Link :=
  { l with st := st, credits := Vector.replicate 4 32, next := 0, expect := 0, naked := false, tryX8 := false, x8 := false, kept := [], rxBuf := [] }

/-- The two ends of every link of tile `t` take a state (R637, 13 R467, R486), the peer's end only where its LINK domain is acknowledged. -/
def linkBoth (s : State) (t : Nat) (st : LinkState) : State :=
  (List.range 4).foldl (fun s k =>
    let m := peerOf s.nTiles t k
    let j := peerLink s.nTiles t k
    let old := (getLink s (t * 4 + k)).st
    let s := modLink s (t * 4 + k) fun l => { l.fresh_ st with replay := [], queue := [], badReplay := [] }
    let s := if old = st then s else raiseEdge s t (0x3C8 + k)
    if !bit (getTile s m).ack domLINK then s
    else
      let s := setLinkState s m j fun l => l.fresh_ st
      if st = .down then reroute s m j else s) s

/-- A port of a PORT domain that powers down (R637): entries retired uncounted, with TXSRC for those with NOTE (11 R416), frames cut, link
down. A context that waits in SCHR goes on, to be refused (05 R219). -/
def sleepPort (s : State) (p : Nat) : State :=
  let s := (List.range 8).foldl (fun s q =>
    let es := (getTxQ s (txKey p q)).entries
    es.foldl (fun s e => retired s p q e) (modTxQ s (txKey p q) fun x => { x with entries := [] })) s
  let s := wakeChunk s p
  let s := modPort s p fun x => { x with up := false, speed := 0, report := none, rx := none, tx := none, xoff := 0, refreshAt := none }
  modPair s p fun x => { x with frames := [], asleep := true, cur := none, nochunk := false, busyTo := 0 }

/-- What acceptance of a power-down of domain `d` does at once (R637). -/
def isolate (s : State) (t d : Nat) : State :=
  let s := modTile s t fun x => { x with req := setBit x.req d false, stale := setBit x.stale d false }
  if 2 ≤ d && d ≤ 5 then
    let q := d - 2
    let s := (List.range 2048).foldl (fun s i => if (getUWord s (uwKey t q i)).w = 0 then s else modUWord s (uwKey t q i) fun x => { x with w := 0, tag := 0 }) s
    (List.range 32).foldl (fun s i => modDec s (decKey t q i) fun x => { x with w := 0 }) s
  else if d = domPORT then (span (t * 8) 8).foldl sleepPort s
  else if d = domPIN then modTile s t fun x => { x with gpOut := 0, gpOe := 0 }
  else if d = domLINK then linkBoth s t .down
  else s

/-- A power-down command (R636, R637). -/
def powerDownCmd (s : State) (t dom tile : Nat) : State :=
  match downRefusal s t dom tile with
  | some r => pwrRes s t r
  | none =>
    if !bit (getTile s t).req dom then pwrRes s t 0
    else (domsOf dom).foldl (fun s d => isolate s t d) (setTile s t { getTile s t with pcmd := some { up := false, dom } })

/-- Requests the domains of a power-up, which is then in progress. -/
def requestUp (s : State) (t dom : Nat) : State :=
  modTile s t fun x => { x with req := (domsOf dom).foldl (fun w d => setBit w d true) x.req, pcmd := some { up := true, dom } }

/-- A quad that wakes asks its partner for its 685 blocks (08 R293, R642, R643). -/
def reloadQuad (s : State) (t q : Nat) : State :=
  (List.range 685).foldl (fun s i => askPartner s t (wsBlock q i + 32768)) (modTile s t fun x => { x with wakeBad := setBit x.wakeBad q false })

/-- Blocks that quad `q` has asked for and not been answered. -/
def reloadWaits (s : State) (t q : Nat) : Bool :=
  (getTile s t).resend.any fun r => decide (wsBlock q 0 + 32768 ≤ r.1) && decide (r.1 < wsBlock q 0 + 32768 + 685)

/-- A power-up command (R639): on tile 0 also a remote wake of BUF of tile `tile`; a quad whose wake failed is reloaded again (R643). -/
def powerUpCmd (s : State) (t dom tile : Nat) : State :=
  if 10 ≤ dom then pwrRes s t 8
  else if tile ≠ 0 && tile ≠ t then
    if t = 0 && dom = domBUF && tile < s.nTiles then pwrRes (modTile s tile fun x => { x with wakeReq := true }) t 0 else pwrRes s t 8
  else
    let x := getTile s t
    if bit x.req dom && !bit x.stale dom then pwrRes s t 0
    else
      let s := requestUp s t dom
      if 2 ≤ dom && dom ≤ 5 && bit x.ack dom then reloadQuad s t (dom - 2) else s

/-- A write of PWR_CMD (R645); BUSY ignores it. -/
def pwrCmd (s : State) (t : Nat) (v : Word) : State :=
  if (getTile s t).pcmd.isSome then s
  else if bit v 31 then powerUpCmd s t (fld v 0 4) (fld v 8 3)
  else powerDownCmd s t (fld v 0 4) (fld v 8 3)

/-- A remote wake arrives at the controller of tile `t` (R640); it waits for the end of a command in progress. -/
def remoteWake (s : State) (t : Nat) : State :=
  if (getTile s t).wakeReq && (getTile s t).pcmd.isNone then requestBuf (modTile s t fun x => { x with wakeReq := false }) t else s

/-- CFG_DGEN field of a domain (R646): register offset and low bit. -/
def dgenField (d : Nat) : Option (Nat × Nat) :=
  if d = domSEC then some (0x500048, 0)
  else if 2 ≤ d ∧ d ≤ 5 then some (0x500040, 8 * (d - 2))
  else if d = domPORT then some (0x500044, 0)
  else if d = domPIN then some (0x500044, 8)
  else if d = domBUF then some (0x500044, 16)
  else if d = domLINK then some (0x500044, 24)
  else none

/-- A generation counter advances (R641). -/
def bumpGen (s : State) (t d : Nat) : State :=
  match dgenField d with
  | some (o, lo) => modRg s (ta t o) fun w => setFld w lo 8 (fld w lo 8 + 1)
  | none => s

/-- The command in progress on tile `t` concerns domain `d`. -/
def cmdOf (s : State) (t d : Nat) (up : Bool) : Bool :=
  match (getTile s t).pcmd with
  | some c => c.up == up && (domsOf c.dom).contains d
  | none => false

/-- A source of tile `t` whose latch caught a message and whose WAKE is 1 requests BUF (10 R384). -/
def latchAsk (s : State) (t : Nat) : State :=
  if s.srcs.any fun e => e.1 / 1024 == t && (e.2.edge || e.2.lvlc) && srcWake s t (e.1 % 1024) then requestBuf s t else s

/-- The command in progress ends; a wake of BUF that was asked for meanwhile begins. -/
def endCmd (s : State) (t res : Nat) : State := latchAsk (pwrRes (modTile s t fun x => { x with pcmd := none }) t res) t

/-- PWR_ACK_d of tile `t` takes a level (R634, R641); not while KP_TEST holds the tile in reset (04 R135). -/
def powerAck (s : State) (t d : Nat) (level : Bool) : State :=
  let x := getTile s t
  if s.kpTest || 10 ≤ d || d = 0 || bit x.ack d == level then s
  else
    let s := setTile s t { x with ack := setBit x.ack d level, stale := if level && bit x.req d then setBit x.stale d true else x.stale }
    if level && bit x.req d then
      let s := bumpGen s t d
      if d = domLINK then linkBoth s t .training else if 2 ≤ d && d ≤ 5 then reloadQuad s t (d - 2) else s
    else if !level && !bit x.req d && cmdOf s t d false then
      if (match x.pcmd with | some c => (domsOf c.dom).all fun e => !bit (getTile s t).ack e | none => false) then endCmd s t 0 else s
    else s

/-- Unit code of a domain's main unit (R635). -/
def domUnit (d : Nat) : Nat :=
  if 2 ≤ d ∧ d ≤ 5 then 0x01 else if d = domPORT then 0x08 else if d = domPIN then 0x0A else if d = domBUF then 0x04
  else if d = domLINK then 0x0F else 0x12

/-- An acknowledge has not followed its request within 1 ms (R635). -/
def ackTimeout (s : State) (t d : Nat) : State :=
  let x := getTile s t
  if 10 ≤ d || bit x.ack d == bit x.req d || !(cmdOf s t d true || cmdOf s t d false) then s
  else
    let s := modRg (endCmd s t 7) (pwrStatA t) fun w => setBit w 26 true
    writeFault s t { outcome := 3, cls := 0x02, unit := domUnit d, inst := d, ack := true }

/-! ## Wakes (R642 to R644) -/

/-- Quad `q` of tile `t` has reloaded: its engines return to service (09 R359, 14 R499), and its pace window starts anew (02 R79). A pace
alarm of before the sleep keeps LVL, and so ANY and the alarm of TMR_PACE_ALM, until eight good windows have passed: DESIGN CHOICE, the spec
does not say what the sleep does to it (notes/assumptions/34.md). -/
def wakeQuad (s : State) (t q : Nat) : State :=
  let s := (span (q * 4) 4).foldl (fun s e => setEng s (t * 16 + e) {}) s
  let s := modTile s t fun x => { x with goodWin := vset x.goodWin q 0, paceNew := setBit x.paceNew q true }
  modRg s (ta t 0x55F024) fun w => setBit w (8 + q) false

/-- A port and the pair of its number after a wake of PORT: empty, counters zero, link down (11 R408, R425, 12 R455). -/
def wakePort (s : State) (p : Nat) : State :=
  let s := (List.range 8).foldl (fun s q => setTxQ (setFlow s (flowKey p q) {}) (txKey p q) {}) s
  let s := setPort s p { sent := (getPort s p).sent }
  let b := pa p 0
  let kb := ka p 0
  let lost (a : Nat) : Bool :=
    a == b + 8 || a == b + 0x28 || (decide (b + 0x308 ≤ a) && decide (a < b + 0x800)) ||
    (decide (b + 0x100 ≤ a) && decide (a < b + 0x200) && (a - b) % 0x20 == 0xC) || (decide (kb + 0x10 ≤ a) && decide (a < kb + 0x80))
  { s with regs := s.regs.filter fun e => !lost e.1 }

/-- A sequencer after a wake of PIN: STOPPED, SR, FIFOs and STAT at 0 (16 R569). -/
def wakeSeq (s : State) (n : Nat) : State :=
  seqLevels (setRg (setSeq s n { rxAt := (getSeq s n).rxAt }) (qa n 0x24) 0) n

/-- Registers of tile `t` that survive a sleep of BUF: those in AON, and those that tile 0 delivers again. -/
def keptAsleep (t a : Nat) : Bool :=
  let o := a % 0x1000000
  a / 0x1000000 != t || decide (o < 0x500000) || (decide (0x500040 ≤ o) && decide (o < 0x50004C)) ||
  (decide (0x511000 ≤ o) && decide (o < 0x515000) && o % 16 == 0) || (decide (0x550000 ≤ o) && decide (o < 0x570000)) ||
  (decide (0x590000 ≤ o) && decide (o < 0x5A0000)) || (decide (0x5C0010 ≤ o) && decide (o < 0x5C0020))

/-- A table without the entries whose key satisfies `own`. -/
def dropKeys {α : Type} (own : Nat → Bool) (m : Sparse α) : Sparse α := m.filter fun e => !own e.1

/-- Each event source takes what its latches caught (10 R384). -/
def takeLatches (s : State) (t : Nat) : State :=
  { s with srcs := (s.srcs.map fun e =>
      if e.1 / 1024 == t then
        (e.1, { e.2 with pend := e.2.edge || e.2.lvlc, lvl := e.2.lvlc, act := false, miss := false, holder := none, edge := false, lvlc := false })
      else e).filter fun e => decide (e.2 ≠ {}) }

/-- Tile `t` after the wake of BUF, SEC and LINK (R642, R644): memories zero, contexts FREE, registers at their reset values, the tile
key, grants and mirror store delivered again, event latches transferred. -/
def wakeBuf (s : State) (t : Nat) : State :=
  let x := getTile s t
  let lost := (s.mirror.map Prod.fst).filter fun k => k / 32768 == partner t
  let s := { s with
    mem := s.mem.filter fun e => e.1 / 0x1000000 != t
    code := s.code.filter fun e => e.1 / 0x1000000 != t
    codeTag := dropKeys (fun k => k / 16384 == t) s.codeTag
    mirror := dropKeys (fun k => k / 32768 == t || k / 32768 == partner t) s.mirror
    badBlk := s.badBlk.filter fun k => k / 2 ^ 20 != t
    ctxs := dropKeys (fun k => k / 256 == t) s.ctxs
    mbxs := dropKeys (fun k => k / 32 == t) s.mbxs
    pmcs := dropKeys (fun k => k / 144 == t) s.pmcs
    smps := dropKeys (fun k => k / 16 == t) s.smps
    regs := s.regs.filter fun e => keptAsleep t e.1
    staged := s.staged.filter fun e => keptAsleep t e.1 }
  let s := setTile s t { ns := x.ns, frac := x.frac, goodWin := x.goodWin, paceNew := x.paceNew, gpIn := x.gpIn, req := x.req, ack := x.ack,
                         stale := x.stale &&& ~~~0x302#10, pcmd := x.pcmd, wakeReq := x.wakeReq, peers := x.peers, sync := x.sync, tick := x.tick }
  let s := (tilesOf s).foldl (fun s u =>
    if u = t then s
    else modTile s u fun y => { y with eseqOut := dropKeys (fun k => k / 4 == t) y.eseqOut, eseqIn := dropKeys (fun k => k / 4 == t) y.eseqIn }) s
  let s := grantTile (deliverKey s t) t
  let s := lost.foldl (fun s k => mirrorPut s (partner t) (k % 32768)) s
  takeLatches s t

/-- The links of tile `t` have trained, or failed to (R642). -/
def linksSettled (s : State) (t : Nat) : Bool := (List.range 4).all fun k => decide ((getLink s (t * 4 + k)).st ≠ .training)

/-- The wake sequence of domain `d` of tile `t` ends (R641 to R644). For BUF it waits for SEC and LINK and for the training of the links; for a
quad, for the answers of the partner, and `ok` says that every CRC was verified. For PORT the links retrain from down (11 R428). -/
def wakeDone (s : State) (t d : Nat) (ok : Bool) : State :=
  let x := getTile s t
  if !bit x.stale d || !bit x.ack d || !bit x.req d then s
  else if 2 ≤ d && d ≤ 5 then
    if reloadWaits s t (d - 2) then s
    else if ok && !bit x.wakeBad (d - 2) then
      let s := wakeQuad (modTile s t fun x => { x with stale := setBit x.stale d false }) t (d - 2)
      if cmdOf s t d true then endCmd s t 0 else s
    else
      let s := if cmdOf s t d true then endCmd s t 9 else pwrRes s t 9
      writeFault s t { outcome := 1, cls := 0x07, unit := 0x03, inst := d - 2, ack := true }
  else if d = domBUF then
    if ([domSEC, domLINK].any fun e => !bit x.ack e || !bit x.req e) || !linksSettled s t then s
    else
      let s := wakeBuf s t
      if cmdOf s t d true then endCmd s t 0 else s
  else if d = domSEC || d = domLINK then s
  else
    let s := if d = domPORT then (span (t * 8) 8).foldl wakePort s
      else if d = domPIN then (span (t * 32) 32).foldl wakeSeq s else s
    let s := modTile s t fun x => { x with stale := setBit x.stale d false }
    let s := if d = domPORT then (span (t * 8) 8).foldl evalLink s else s
    if cmdOf s t d true then endCmd s t 0 else s

/-- Rights of the power registers (R645). -/
def pwrDesc (o : Nat) : Option Desc :=
  if o = 0 then some { rd := rKHD, wr := rKHD, w1c := msk 26 1 } else if o = 4 then some { rd := rKHD, wr := rKHD } else none

/-- Reads. -/
def pwrRead (s : State) (t o : Nat) : Word :=
  let x := getTile s t
  if o = 0 then (rg s (pwrStatA t)) ||| fields [(27, 1, x.pcmd.isSome.toNat), (16, 10, x.stale.toNat), (0, 10, x.ack.toNat)] else 0

/-- Writes. -/
def pwrWrite (s : State) (d : Desc) (t o : Nat) (v : Word) : State × Done :=
  if o = 4 then (pwrCmd s t v, .ok) else (plainWrite s d (pwrStatA t) v, .ok)

end Sys2Proof.Machine
end

