-- ==== Sys2Proof/Machine/Security.lean ====
section
/-! DEFINITION. The security unit (04): measurements, grants, unlock, seals and the key port in service, SEC_ registers. -/
namespace Sys2Proof.Machine

/-- A change of the security unit. -/
def modSec (s : State) (g : Sec → Sec) : State := { s with sec := g s.sec }

/-! ## Measurements (R140, R141) -/

/-- One measurement extended by the record `e` (R140): key 0 to 15 a parcel, 16 the benchmark record; its count advances. -/
def extend (s : State) (k : Nat) (e : List Byte) : State :=
  let m := sget 0 s.sec.meas k
  let s := modSec s fun x => { x with meas := sput 0 x.meas k (digestBits (sha384 (leBytes 48 m.toNat ++ e))) }
  modRg s (if k = 16 then 0x5C0830 else 0x5C0430 + k * 0x40) fun w => w + 1

/-- An event of R141: the benchmark record and the listed parcels' measurements. -/
def measure (s : State) (typ parcel fn epoch : Nat) (digest : List Byte) (ps : List Nat) : State :=
  let e : List Byte := [BitVec.ofNat 8 typ, BitVec.ofNat 8 parcel, BitVec.ofNat 8 fn, 0] ++ leBytes 2 epoch ++ List.replicate 10 0 ++ digest
  ps.foldl (fun s p => extend s p e) (extend s 16 e)

/-- The parcels in the table. -/
def parcelList (s : State) : List Nat := ((s.hdr.map fun h => h.parcels).getD []).map Prod.fst

/-! ## Messages of tile 0 under a tile key (R136, R137) -/

/-- Tile 0 sends an authenticated CTRL message to every other tile whose key it holds. -/
def tellTiles (s : State) (kind hi : Nat) (aux : Word) : State :=
  ((tilesOf s).drop 1).foldl (fun s t =>
    match tileKey s t with
    | some key => (authFlits key (ctrlFlitOf kind t hi aux)).foldl (fun s fl => (sendFlit s 0 fl).1) s
    | none => s) s

/-- SEC_PMC_GRANTp written (R161): on every tile. -/
def grantWrite (s : State) (p : Nat) (v : Word) : State :=
  let w := (v &&& 0xFFFF) ||| BitVec.ofNat 32 (2 ^ p)
  tellTiles (setRg s (0x5C0300 + p * 4) w) ctlGrant p w

/-! ## Unlock (R162 to R168) -/

/-- The unlock in force ends: contexts are released, the parcel's watchdog restarts with DBGREL set (R166, R654, 09 R363). -/
def endUnlock (s : State) : State :=
  if !s.sec.active then s
  else
    let p := s.sec.parcel.toNat
    let s := modSec s fun x => { x with active := false, phase := if x.phase = 3 then 0 else x.phase }
    let s := releaseDbg s 0 p
    let s := wdRestart (wdSync (modRg s (wda p 4) fun w => setBit w 1 true)) p
    tellTiles s ctlUnlock 0 (unlWord s)

/-- Seconds left of WAIT (R167). -/
def waitLeft (s : State) : Nat :=
  match s.sec.waitTo with
  | some w => if atOrAfter (now s 0) w then 0 else ((w - now s 0).toNat + 999999999) / 1000000000
  | none => 0

/-- SEC_UNL_CTL.CHAL (R165, R167). -/
def chalRequest (s : State) : State :=
  if waitLeft s ≠ 0 then s
  else modSec s fun x => { x with chal := none, chalReq := true, spent := false, phase := if x.phase = 1 then 0 else x.phase }

/-- The random source has filled the challenge (R165): its bytes are free. -/
def chalReady (s : State) : State :=
  if !s.sec.chalReq || s.sec.phase = 2 then s
  else
    let (n, s) := freshOf s
    modSec s fun x => { x with chalReq := false, chal := some (Config.challenge n, now s 0), phase := 1 }

/-- The challenge is 60 s old (R165). -/
def chalExpired (s : State) : State :=
  match s.sec.chal with
  | some (_, at_) =>
    if atOrAfter (now s 0) (at_ + 60000000000) then modSec s fun x => { x with chal := none, spent := true, phase := if x.phase = 1 then 0 else x.phase } else s
  | none => s

/-- A word of SEC_UNL_MSG (R165, R168): the last submits the message and consumes the challenge. -/
def msgWrite (s : State) (i : Nat) (v : Word) : State :=
  if s.sec.phase = 2 then s
  else
    let s := modSec s fun x => { x with msg := sput 0 x.msg i v }
    if i = 63 then modSec s fun x => { x with used := x.chal, chal := none, spent := x.spent || x.chal.isSome, phase := 2 } else s

/-- The 256 bytes of the message. -/
def msgBytes (s : State) : List Byte := (List.range 64).flatMap fun i => leBytes 4 (sget 0 s.sec.msg i).toNat

/-- SEC_DEVID as 16 bytes. -/
def devId (s : State) : List Byte := (List.range 4).flatMap fun i => leBytes 4 (rg s (0x5C0010 + 4 * i)).toNat

/-- RES of a submitted message (R163, R165, R168): RES 7 first, where no challenge has been placed since the last request or reset, then
1 to 6; 2 where the last one was consumed or is too old (notes/assumptions/27.md). -/
def unlockRes (s : State) : Nat :=
  let m := msgBytes s
  let p := (m.getD 4 0).toNat
  let sc := (m.getD 5 0).toNat
  let life := leVal ((m.drop 6).take 2)
  let key := (m.drop 0x40).take 96
  let badMagic := m.take 4 ≠ [0x47, 0x56, 0x58, 0x55] || (m.drop 0x38).take 8 ≠ List.replicate 8 0
  match s.sec.used with
  | none => if !s.sec.spent then 7 else if badMagic then 1 else 2
  | some (c, at_) =>
    if badMagic then 1
    else if (m.drop 0x18).take 32 ≠ leBytes 32 c.toNat || (decide (at_ + 60000000000 ≠ now s 0) && atOrAfter (now s 0) (at_ + 60000000000)) then 2
    else if (m.drop 8).take 16 ≠ devId s then 3
    else
      let keyOk := match s.hdr, parcelEntry s p with
        | some h, some e =>
          if p = 0 then decide (key = beBytes 48 h.keyX ++ beBytes 48 h.keyY) else decide (digestBits (sha384 key) = e.keyDigest)
        | _, _ => false
      if !keyOk then 4
      else if !ecdsaOk key (m.take 0xA0) (m.drop 0xA0) then 5
      else if sc = 0 || 8 ≤ sc || life = 0 || 1440 < life then 6
      else 0

/-- The checks of a submitted message end (R162, R165, R167, R654). -/
def unlockVerified (s : State) : State :=
  if s.sec.phase ≠ 2 then s
  else
    let m := msgBytes s
    let r := unlockRes s
    if r ≠ 0 then
      modSec s fun x =>
        let f := min (x.fails.toNat + 1) 255
        { x with phase := 4, res := BitVec.ofNat 4 r, used := none, fails := BitVec.ofNat 8 f,
                 waitTo := some (now s 0 + BitVec.ofNat 64 (min 255 (2 ^ (f - 1)) * 1000000000)) }
    else
      let q := (m.getD 4 0).toNat
      let s := if s.sec.active && s.sec.parcel.toNat != q then endUnlock s else s
      let s := modSec s fun x =>
        { x with phase := 3, res := 0, used := none, fails := 0, waitTo := none, active := true, parcel := BitVec.ofNat 4 q,
                 scope := BitVec.ofNat 3 (m.getD 5 0).toNat,
                 until_ := now s 0 + BitVec.ofNat 64 (leVal ((m.drop 6).take 2) * 60000000000) }
      let s := tellTiles s ctlUnlock 0 (unlWord s)
      measure s 0x03 q 0xFF 0 (sha384 m) [q]

/-- LIFE has passed (R166). -/
def lifeExpired (s : State) : State := if s.sec.active && atOrAfter (now s 0) s.sec.until_ then endUnlock s else s

/-- WAIT has counted down (R167). -/
def waitElapsed (s : State) : State := if waitLeft s = 0 then modSec s fun x => { x with waitTo := none } else s

/-! ## Seals (R174 to R177) -/

/-- SEC_ARC of a counter. -/
def arcA (i : Nat) : Nat := 0x5C0200 + i * 4

/-- The parcels whose functions a seal of `target` looks at: every parcel for counter 16. -/
def sealFns (s : State) (target : Nat) : List Nat := (List.range (nFn s)).filter fun f => target == 16 || fnParcel s f == target

/-- RES of a seal request's checks (R176); 0 where it is carried out. -/
def sealRefusal (s : State) (target epoch : Nat) : Nat :=
  if epoch ≤ (rg s (arcA target)).toNat then 1
  else if (sealFns s target).any fun f => decide (fnState s f = .loading) then 2
  else if target = 16 then (if ((s.hdr.map fun h => h.epoch.toNat).getD 0) < epoch then 3 else 0)
  else if (sealFns s target).any fun f => !decide (fnState s f = .unloaded) && (getFn s f).epoch.toNat != epoch then 3
  else 0

/-- A write of SEC_SEAL (R175, R176). -/
def sealWrite (s : State) (acc : Acc) (v : Word) : State × Done :=
  let t := fld v 16 5
  let ok := if t = 16 then allows s acc 0 0 rKHD true else decide (t < 16) && allows s acc 0 t rSHD true
  if !ok then (s, .refused)
  else if s.sec.sealing.isSome then (s, .ok)
  else
    let e := fld v 0 16
    let r := sealRefusal s t e
    let s := setRg s 0x5C0284 (fields [(16, 5, t), (0, 4, r)])
    if r ≠ 0 then (s, .ok)
    else
      (modSec s fun x => { x with sealing := some { target := t, epoch := BitVec.ofNat 16 e, readBack := false, done := none },
                                  kp := some { op := 3, idx := BitVec.ofNat 5 t, wd := BitVec.ofNat 16 e, at_ := now s 0 } }, .ok)

/-- The request has waited longer than R132 allows: 10 µs for a read, 100 ms for an advance. -/
def kpLate (s : State) (k : KpReq) : Bool := atOrAfter (now s 0) (k.at_ + if k.op = 3 then 100000001 else 10001)

/-- KP_ACK for the request in progress (R131 to R133): an advance is followed by its read-back; one that comes too late is a failure. -/
def kpAck (s : State) (rd : Word) (err : Bool) : State :=
  match s.sec.kp, s.sec.sealing with
  | some k, some q =>
    if err || kpLate s k then modSec s fun x => { x with kp := none, sealing := some { q with done := some false } }
    else if k.op = 3 then
      modSec s fun x => { x with kp := some { op := 2, idx := k.idx, wd := 0, at_ := now s 0 }, sealing := some { q with readBack := true } }
    else
      let s := setRg s (arcA q.target) (rd &&& 0xFFFF)
      modSec s fun x => { x with kp := none, sealing := some { q with done := some (decide (rd &&& 0xFFFF = q.epoch.setWidth 32)) } }
  | _, _ => s

/-- The key port has not answered in time (R132): 10 µs for a read, 100 ms for an advance. -/
def kpTimeout (s : State) : State :=
  match s.sec.kp, s.sec.sealing with
  | some k, some q =>
    if atOrAfter (now s 0) (k.at_ + if k.op = 3 then 100000000 else 10000) then
      modSec s fun x => { x with kp := none, sealing := some { q with done := some false } }
    else s
  | _, _ => s

/-- The seal ends (R176, R177). The record of counter 16, which belongs to no parcel, carries 16 in its parcel byte: DESIGN CHOICE
(notes/assumptions/27.md). -/
def sealDone (s : State) : State :=
  match s.sec.sealing with
  | some q =>
    match q.done with
    | some ok =>
      let s := modSec s fun x => { x with sealing := none }
      if ok then
        measure (modRg s 0x5C0284 fun w => setFld w 0 4 0) 0x04 q.target 0xFF q.epoch.toNat (List.replicate 48 0)
          (if q.target = 16 then parcelList s else [q.target])
      else modRg s 0x5C0284 fun w => setFld w 0 4 4
    | none => s
  | none => s

/-- The security unit refuses the item it verifies (14 R497): an item of a reload, which is read once more (03 R109), and a submitted unlock
message, with RES 5. -/
def secFault (s : State) : State :=
  let s := if s.nvm.reading.isSome then { s with nvm := { s.nvm with secHits := s.nvm.secHits + 1 } } else s
  if s.sec.phase = 2 then
    modSec s fun x =>
      let f := min (x.fails.toNat + 1) 255
      { x with phase := 4, res := 5, used := none, fails := BitVec.ofNat 8 f,
               waitTo := some (now s 0 + BitVec.ofNat 64 (min 255 (2 ^ (f - 1)) * 1000000000)) }
  else s

/-! ## Registers -/

/-- K; S, H and D of the owning parcel. -/
def rKSHD : Rt := { rSHD with k := true }

/-- Rights and codes of the security registers; `o` the offset from 0x5C_0000. -/
def secDesc (t o : Nat) : Option Desc :=
  let z : Desc := { rd := rAll, dom := domSEC }
  let dbg : Rt := { anyDbg := true }
  if o % 4 ≠ 0 then none
  else if 0x10 ≤ o && o < 0x20 then some { z with rd := { rAll with anyDbg := true } }
  else if 0x100 ≤ o && o < 0x140 then some z
  else if 0x380 ≤ o && o < 0x3C0 then some { z with own := (o - 0x380) / 4, rd := rKSHD, rc := msk 0 32 }
  else if t ≠ 0 then none
  else if 0x200 ≤ o && o < 0x240 then some { z with own := (o - 0x200) / 4, rd := rKSHD }
  else if o = 0x240 then some z
  else if o = 0x280 then some { z with wr := { rKSHD with every := true } }
  else if o = 0x284 then some z
  else if 0x300 ≤ o && o < 0x340 then some { z with own := (o - 0x300) / 4, rd := rKSHD, wr := rSHD }
  else if 0x400 ≤ o && o < 0x800 then
    if o % 0x40 ≤ 0x30 then some { z with own := (o - 0x400) / 0x40, rd := { rSWHD with k := true } } else none
  else if 0x800 ≤ o && o ≤ 0x830 then some { z with rd := rKHD }
  else if o = 0x900 then some { z with rd := dbg, wr := dbg }
  else if o = 0x904 then some { z with rd := { anyDbg := true, k := true } }
  else if 0x910 ≤ o && o < 0x930 then some { z with rd := dbg }
  else if 0xA00 ≤ o && o < 0xB00 then some { z with rd := { rAll with anyDbg := true }, wr := dbg }
  else none

/-- SEC_UNL_STAT (R168). -/
def unlStat (s : State) : Word :=
  let x := s.sec
  fields [(24, 8, waitLeft s), (16, 8, x.fails.toNat), (12, 4, x.res.toNat), (8, 4, if x.active then x.parcel.toNat else 0),
          (5, 3, if x.active then x.scope.toNat else 0), (4, 1, x.active.toNat), (0, 3, x.phase.toNat)]

/-- SEC_PTABp (R178). -/
def ptab (s : State) (p : Nat) : Word :=
  match parcelEntry s p with
  | some e => fields [(8, 1, 1), (4, 2, e.ceiling.toNat), (1, 1, e.bootSlot.toNat), (0, 1, e.quiet.toNat)]
  | none => 0

/-- Reads. -/
def secRead (s : State) (d : Desc) (acc : Acc) (t o : Nat) : State × Word :=
  if 0x100 ≤ o && o < 0x140 then (s, ptab s ((o - 0x100) / 4))
  else if o = 0x284 then
    let w := rg s 0x5C0284
    let g := fld w 16 5
    (s, if allows s acc 0 (if g = 16 then 0 else g) rKSHD false then setBit w 31 s.sec.sealing.isSome else 0)
  else if 0x400 ≤ o && o < 0x800 && o % 0x40 < 0x30 then
    (s, ((sget 0 s.sec.meas ((o - 0x400) / 0x40)) >>> (8 * (o % 0x40))).setWidth 32)
  else if 0x800 ≤ o && o < 0x830 then (s, ((sget 0 s.sec.meas 16) >>> (8 * (o - 0x800))).setWidth 32)
  else if o = 0x904 then (s, unlStat s)
  else if 0x910 ≤ o && o < 0x930 then (s, match s.sec.chal with | some (c, _) => (c >>> (8 * (o - 0x910))).setWidth 32 | none => 0)
  else if o = 0x280 || o = 0x900 || 0xA00 ≤ o then (s, 0)
  else plainRead s d acc (ta t (0x5C0000 + o))

/-- Writes. -/
def secWrite (s : State) (acc : Acc) (o : Nat) (v : Word) : State × Done :=
  if o = 0x280 then sealWrite s acc v
  else if 0x300 ≤ o && o < 0x340 then (grantWrite s ((o - 0x300) / 4) v, .ok)
  else if o = 0x900 then
    let s := if bit v 1 then endUnlock s else s
    (if bit v 0 then chalRequest s else s, .ok)
  else (msgWrite s ((o - 0xA00) / 4) v, .ok)

end Sys2Proof.Machine
end

