-- ==== Sys2Proof/Machine/Units.lean ====
section
/-! DEFINITION. The registers of the units that a function may bind, by tile offset (01 R40), and what an accepted enable makes of
their staged copies (03 R121). -/
namespace Sys2Proof.Machine

/-- The register of a bindable unit, or of the Datum, at offset `off` of tile `t`. -/
def unitDesc (s : State) (t off : Nat) : Option Desc :=
  if 0x502000 ≤ off && off < 0x502400 then schDesc s t (off - 0x502000)
  else if 0x510000 ≤ off && off < 0x520000 then evcDesc s t (off - 0x510000)
  else if 0x520000 ≤ off && off < 0x530000 then mbxDesc s t (off - 0x520000)
  else if 0x530000 ≤ off && off < 0x534000 then portDesc s t (off - 0x530000)
  else if 0x540000 ≤ off && off < 0x550000 then seqDesc s t (off - 0x540000)
  else if 0x55F000 ≤ off && off < 0x560000 then datDesc s t (off - 0x55F000)
  else if 0x550000 ≤ off && off < 0x55F000 then tmrDesc s t (off - 0x550000)
  else if 0x560000 ≤ off && off < 0x570000 then pwmDesc s t (off - 0x560000)
  else none

/-- Its read. -/
def unitRead (s : State) (d : Desc) (acc : Acc) (t off : Nat) : State × Word :=
  if off < 0x510000 then schRead s d acc t (off - 0x502000)
  else if off < 0x520000 then evcRead s d acc t (off - 0x510000)
  else if off < 0x530000 then mbxRead s d acc t (off - 0x520000)
  else if off < 0x540000 then portRead s d acc t (off - 0x530000)
  else if off < 0x550000 then seqRead s d acc t (off - 0x540000)
  else if off < 0x55F000 then tmrRead s d acc t (off - 0x550000)
  else if off < 0x560000 then datRead s d acc t (off - 0x55F000)
  else pwmRead s d acc t (off - 0x560000)

/-- The general sources that source fields of the register at `a` of tile `t` name, by its staged copy. -/
def fieldsAt (s : State) (t a : Nat) : List Nat :=
  (((srcFields t).filter (·.addr == a)).map fun x => fld (sg s a) x.lo 10).filter (· ≤ 0x37F)

/-- A general source that no function binds any longer is as after reset (01 R37, 10 R653). -/
def unbindSrc (s : State) (t n : Nat) : State :=
  if (srcFn s t n).isSome then s
  else
    let a := ta t (0x511000 + n * 16)
    { setSrc s (t * 1024 + n) {} with
      regs := s.regs.filter fun e => e.1 != a && e.1 != a + 4
      staged := s.staged.filter fun e => e.1 != a && e.1 != a + 4 }

/-- The write of a unit's register, its namings apart. -/
def unitPut (s : State) (d : Desc) (acc : Acc) (t off : Nat) (v : Word) (flit : Bool) : State × Done :=
  if off < 0x510000 then schWrite s d t (off - 0x502000) v
  else if off < 0x520000 then evcWrite s d acc t (off - 0x510000) v
  else if off < 0x530000 then mbxWrite s d acc t (off - 0x520000) v
  else if off < 0x540000 then portWrite s d acc t (off - 0x530000) v flit
  else if off < 0x550000 then seqWrite s d acc t (off - 0x540000) v
  else if off < 0x55F000 then tmrWrite s d t (off - 0x550000) v
  else if off < 0x560000 then datWrite s d t (off - 0x55F000) v
  else pwmWrite s d t (off - 0x560000) v

/-- Its write; `flit` where it arrived from another tile (11 R413). Sources that it leaves unnamed return to no function (10 R653). -/
def unitWrite (s : State) (d : Desc) (acc : Acc) (t off : Nat) (v : Word) (flit : Bool) : State × Done :=
  let r := unitPut s d acc t off v flit
  ((fieldsAt s t (ta t off)).foldl (fun s n => unbindSrc s t n) r.1, r.2)

/-! ## Who governs a staged register -/

/-- The source whose EVC_SCFG or EVC_SVEC stands at an offset. -/
def srcOfOff (off : Nat) : Option Nat := if 0x511000 ≤ off && off < 0x514FF0 then some ((off - 0x511000) / 16) else none

/-- The function that governs the staged copy at `off`: the one that binds the unit; for a fixed source (10 R366) the one whose accepted
record names it. -/
def governor (s : State) (d : Desc) (t off : Nat) : Option Nat :=
  match d.unit with
  | some f? => f?
  | none => (srcOfOff off).bind fun n => let x := getSrc s (t * 1024 + n); if x.loaded then some x.fn else none

/-- May a staged register be written now (03 R121)? A fixed source's that no accepted record names may. -/
def mayStage (s : State) (d : Desc) (t off : Nat) : Bool :=
  match governor s d t off with
  | some f => stageOpen s (some f)
  | none => d.unit.isNone

/-- Does an accepted enable of function `f` make the staged copy at address `a` live? -/
def goesLive (s : State) (f a : Nat) : Bool :=
  let t := a / 0x1000000
  match unitDesc s t (a % 0x1000000) with
  | some d => d.staged && governor s d t (a % 0x1000000) == some f
  | none => false

/-- Every staged copy of function `f` becomes live (R121). -/
def stagedLive (s : State) (f : Nat) : State :=
  ((s.staged.map Prod.fst ++ s.regs.map Prod.fst).filter (goesLive s f)).foldl (fun s a => setRg s a (sg s a)) s

/-! ## Numbers bound to a function -/

/-- The numbers below `n` that a bit map of function `f` names. -/
def boundBy (s : State) (f : Nat) (sel : FnDesc → Nat) (n : Nat) : List Nat :=
  match fnDesc s f with
  | some d => (List.range n).filter (sel d).testBit
  | none => []

def ctxsOfFn (s : State) (f : Nat) : List Nat := boundBy s f FnDesc.ctxs (s.nTiles * 256)
def portsOfFn (s : State) (f : Nat) : List Nat := boundBy s f FnDesc.ports (s.nTiles * 8)
def pairsOfFn (s : State) (f : Nat) : List Nat := boundBy s f FnDesc.pairs (s.nTiles * 8)
def seqsOfFn (s : State) (f : Nat) : List Nat := boundBy s f FnDesc.psqs (s.nTiles * 32)
def tmrsOfFn (s : State) (f : Nat) : List Nat := boundBy s f FnDesc.tmrs (s.nTiles * 16)
def pwmsOfFn (s : State) (f : Nat) : List Nat := boundBy s f FnDesc.pwms (s.nTiles * 8)
def mbxsOfFn (s : State) (f : Nat) : List Nat := boundBy s f FnDesc.mbxs (s.nTiles * 32)

/-- The tiles on which function `f` binds a resource (13 R485). -/
def tilesOfFn (s : State) (f : Nat) : List Nat :=
  (tilesOf s).filter fun t =>
    (ctxsOfFn s f).any (· / 256 == t) || (portsOfFn s f ++ pairsOfFn s f ++ pwmsOfFn s f).any (· / 8 == t) ||
    (seqsOfFn s f ++ mbxsOfFn s f).any (· / 32 == t) || (tmrsOfFn s f).any (· / 16 == t) ||
    (match fnDesc s f with | some d => (d.regions.any (·.tile == t)) || (d.doorbells.any (·.1 == t)) | none => false)

end Sys2Proof.Machine
end

