-- ==== Sys2Proof/Machine/Nvm.lean ====
section
/-! DEFINITION. The NVM port (03 R90 to R97): ownership, commands, and what they do to the flash (notes/assumptions/8.md). -/
namespace Sys2Proof.Machine

/-- CFG_NVM_STAT. -/
def nvmStatA : Nat := 0x50002C

/-- The identity that CFG_NVM_OWN shows while the start sequence keeps the port (R108). -/
def startIdent : Word := Acc.ident { kind := 3, id := 0, parcel := 0, priv := 3 }

/-- The access is the port's owner (R94, R95). -/
def nvmOwns (s : State) (acc : Acc) : Bool := !s.nvm.startOwned && decide (s.nvm.owner ≠ 0) && s.nvm.owner == acc.ident

/-- The owner's parcel. -/
def nvmParcel (s : State) : Nat := fld s.nvm.owner 24 4

/-- The owner changes: CFG_NVM_STAT is cleared. -/
def nvmSetOwner (s : State) (o : Word) : State := setRg { s with nvm := { s.nvm with owner := o } } nvmStatA 0

/-- A read of CFG_NVM_OWN (R94); a debugger's without the consume bit acquires nothing (00 R19, 18 R607). -/
def nvmAcquire (s : State) (acc : Acc) : State × Word :=
  if s.nvm.startOwned then (s, startIdent)
  else if s.nvm.owner ≠ 0 then (s, s.nvm.owner)
  else (if acc.effect then nvmSetOwner s acc.ident else s, 0)

/-- REL: the port is free (R94). -/
def nvmRelease (s : State) : State := if s.nvm.startOwned then s else nvmSetOwner s 0

/-- The page lies in the area of parcel `p` (R95): for parcel 0 with the header region. -/
def nvmInArea (s : State) (p page : Nat) : Bool :=
  (p == 0 && decide (page * 256 < 0x20000)) ||
  (match parcelEntry s p with
   | some e => decide (e.areaBase ≤ page * 256) && decide (page * 256 < e.areaBase + e.areaSize)
   | none => false)

/-- A write of CFG_NVM_CMD by the owner (R95). DESIGN CHOICES of the model, where the spec gives no order (notes/assumptions/36.md): the
refusal for the granule's tag is judged before RANGE, and a write of OP 00 while BUSY sets COLL like any command. -/
def nvmCommand (s : State) (v : Word) : State × Done :=
  let page := fld (rg s 0x500024) 0 20
  if s.nvm.cmd.isSome then (modRg s nvmStatA fun w => setBit w 3 true, .ok)
  else if fld v 30 2 = 0 then (s, .ok)
  else if (granTag s 0 (fld v 0 14)).1 ≠ nvmParcel s then (s, .refused)
  else if !nvmInArea s (nvmParcel s) page then (modRg s nvmStatA fun w => setBit w 2 true, .ok)
  else
    ({ s with nvm := { s.nvm with cmd := some { op := BitVec.ofNat 2 (fld v 30 2), page := BitVec.ofNat 20 page,
                                                gran := BitVec.ofNat 14 (fld v 0 14), by_ := s.nvm.owner, issued := false } } }, .ok)

/-- The waiting command's flash traffic starts, no reload reading or waiting (R96). -/
def nvmIssue (s : State) : State :=
  match s.nvm.cmd with
  | some c => if s.nvm.reading.isNone && s.nvm.reloads.isEmpty && !c.issued then { s with nvm := { s.nvm with cmd := some { c with issued := true } } } else s
  | none => s

/-- The command ends: a bit of CFG_NVM_STAT, while its writer still owns the port (R93, R95). -/
def nvmEnd (s : State) (c : NvmCmd) (b : Nat) : State :=
  let s := { s with nvm := { s.nvm with cmd := none } }
  if s.nvm.owner = c.by_ then modRg s nvmStatA fun w => setBit w b true else s

/-- Programming clears bits: the page and the granule's bytes together (notes/assumptions/8.md). -/
def nvmProgram (s : State) (page gran : Nat) : State :=
  let old := flashBytes s (page * 256) 256
  { s with flash := writeBytes 0xFF s.flash (page * 256) (List.zipWith (· &&& ·) old (memBytes s (gran * 256) 256)) }

/-- What an issued command does (R95), and whether it did it: a granule whose tag group fails its CRC is not accessed (04 R151), and the
command ends with FAIL (DESIGN CHOICE: notes/assumptions/37.md). -/
def nvmEffect (s : State) (c : NvmCmd) : State × Bool :=
  let g := tagReady s (c.gran.toNat * 256)
  match c.op.toNat with
  | 1 => if g.2 then (hwWrite g.1 0 (c.gran.toNat * 256) (flashBytes s (c.page.toNat * 256) 256), true) else g
  | 2 => if g.2 then (nvmProgram (touchMem g.1 (c.gran.toNat * 256) 256) c.page.toNat c.gran.toNat, true) else g
  | _ => ({ s with flash := eraseBytes s.flash (c.page.toNat / 16 * 4096) 4096 }, true)

/-- The issued command is complete. -/
def nvmDone (s : State) : State :=
  match s.nvm.cmd with
  | some c => if c.issued then let r := nvmEffect s c; nvmEnd r.1 c (if r.2 then 1 else 4) else s
  | none => s

/-- A program or erase exceeds its bound (R93): the flash is reset and the command fails. -/
def nvmTimeout (s : State) : State :=
  match s.nvm.cmd with
  | some c => if c.issued && decide (c.op ≠ 1) then nvmEnd s c 4 else s
  | none => s

/-- Rights of CFG_NVM_OWN, CFG_NVM_ADDR, CFG_NVM_CMD and CFG_NVM_STAT; `o` the offset from 0x50_0000. -/
def nvmDesc (s : State) (acc : Acc) (o : Nat) : Option Desc :=
  let own : Rt := if nvmOwns s acc then { s := true, w := true, h := true, d := true, every := true } else {}
  let area := (parcelEntry s acc.parcel).isSome
  let d : Desc := { rd := { own with k := true }, wr := own }
  match o with
  | 0x20 =>
    let force := acc.kind == 2 && decide (s.nvm.owner ≠ 0) && dbgHolds s 0 (nvmParcel s) 2
    some { rd := { k := true, s := area, h := true, d := true, every := true, anyGrant := true },
           wr := { own with k := true, anyDbg := force || own.anyDbg } }
  | 0x24 => some { d with rw := msk 0 20 }
  | 0x28 => some d
  | 0x2C => some { d with w1c := msk 1 4 }
  | _ => none

/-- Reads. -/
def nvmRead (s : State) (d : Desc) (acc : Acc) (o : Nat) : State × Word :=
  match o with
  | 0x20 => nvmAcquire s acc
  | 0x28 => (s, 0)
  | 0x2C => (s, (rg s nvmStatA) ||| fields [(0, 1, s.nvm.cmd.isSome.toNat)])
  | _ => plainRead s d acc (0x500000 + o)

/-- Writes. -/
def nvmWrite (s : State) (d : Desc) (o : Nat) (v : Word) : State × Done :=
  match o with
  | 0x20 => (if bit v 0 then nvmRelease s else s, .ok)
  | 0x28 => nvmCommand s v
  | _ => (plainWrite s d (0x500000 + o) v, .ok)

end Sys2Proof.Machine
end

