-- ==== Sys2Proof/Machine/Image.lean ====
section
/-! DEFINITION. The image in the flash (03 R98 to R105, R120): header, directories and sections as bytes, and their checks. -/
namespace Sys2Proof.Machine

/-- `n` bytes of `b` from offset `o`, as a number (00 R10). -/
def num (b : List Byte) (o n : Nat) : Nat := leVal ((b.drop o).take n)

/-- Are the `n` bytes from `o` all zero? -/
def zeros (b : List Byte) (o n : Nat) : Bool := num b o n == 0

/-- No two elements of the list satisfy `clash`. -/
def noClash {α : Type} (clash : α → α → Bool) : List α → Bool
  | [] => true
  | x :: xs => !xs.any (clash x) && noClash clash xs

/-! ## Parcel table and descriptors -/

/-- A parcel-table entry (R100). -/
def parcelEnt (b : List Byte) : Nat × ParcelEntry :=
  (num b 0 1, { quiet := (num b 1 1).testBit 0, bootSlot := (num b 1 1).testBit 1, ceiling := BitVec.ofNat 2 (num b 2 1),
                areaBase := num b 4 4, areaSize := num b 8 4, hostGrant := BitVec.ofNat 32 (num b 12 4),
                keyDigest := digestBits ((b.drop 16).take 48) })

/-- Does an entry keep R100 and R127, in a flash of `size` bytes? -/
def parcelEntOk (b : List Byte) (size : Nat) : Bool :=
  let base := num b 4 4
  let len := num b 8 4
  let ceil := num b 2 1
  decide (num b 0 1 ≤ 15) && (if num b 0 1 = 0 then ceil == 0 else ceil == 1 || ceil == 2) && decide (num b 1 1 < 4) && zeros b 3 1 &&
  base % 0x10000 == 0 && decide (0x20000 ≤ base) && len % 0x20000 == 0 && decide (0x40000 ≤ len) && decide (base + len ≤ size)

/-- Two areas overlap, or two entries carry one number. -/
def parcelClash (a b : Nat × ParcelEntry) : Bool :=
  a.1 == b.1 || (decide (a.2.areaBase < b.2.areaBase + b.2.areaSize) && decide (b.2.areaBase < a.2.areaBase + a.2.areaSize))

/-- The used entries of a DOORBELLS list (R101), as their 16-bit values. -/
def bellWords (b : List Byte) : List Nat := ((List.range 32).map fun i => num b (0x170 + 2 * i) 2).filter fun w => w != 0xFFFF

/-- The REGIONS entries: tile, reserved byte, first granule, count, flags. -/
def regionWords (b : List Byte) : List (Nat × Nat × Nat × Nat × Nat) :=
  (List.range 16).map fun i =>
    let o := 0x1B0 + 8 * i
    (num b o 1, num b (o + 1) 1, num b (o + 2) 2, num b (o + 4) 2, num b (o + 6) 2)

/-- A function descriptor (R101). -/
def fnDescOf (b : List Byte) : FnDesc :=
  { parcel := num b 0 1, auto := (num b 1 1).testBit 0, dlim := BitVec.ofNat 8 (num b 2 1), ctxs := num b 8 256,
    ports := num b 0x108 8, pairs := num b 0x110 8, psqs := num b 0x118 32, tmrs := num b 0x138 16, pwms := num b 0x148 8,
    mbxs := num b 0x150 32, doorbells := (bellWords b).map fun w => (w / 1024 % 8, w % 1024),
    regions := ((regionWords b).filter fun r => r.2.2.2.2 % 2 == 1).map fun r =>
      { tile := r.1, first := r.2.2.1, count := r.2.2.2.1, host := r.2.2.2.2.testBit 1 } }

/-- Does a descriptor keep its stated ranges, in a cluster of `n` tiles with these parcels (R101, 0x11)? -/
def fnDescOk (b : List Byte) (n : Nat) (ps : List Nat) : Bool :=
  let d := fnDescOf b
  ps.contains d.parcel && decide (num b 1 1 < 2) && decide (d.dlim ≠ 0) && zeros b 3 5 && zeros b 0x230 16 &&
  decide (d.ctxs < 2 ^ (n * 256)) && decide (d.ports < 2 ^ (n * 8)) && decide (d.pairs < 2 ^ (n * 8)) && decide (d.psqs < 2 ^ (n * 32)) &&
  decide (d.tmrs < 2 ^ (n * 16)) && decide (d.pwms < 2 ^ (n * 8)) && decide (d.mbxs < 2 ^ (n * 32)) && decide (d.ctxs ≠ 0) &&
  !d.regions.isEmpty && (d.regions.all fun r => decide (r.tile < n) && decide (0 < r.count) && decide (r.first + r.count ≤ 16384)) &&
  ((regionWords b).all fun r => r.2.1 == 0 && decide (r.2.2.2.2 < 4)) &&
  ((bellWords b).all fun w => decide (w < 0x2000) && decide (w / 1024 < n) && decide (w % 1024 ≤ 0x37F))

/-- Two functions bind one resource (01 R35). -/
def bindClash (a b : FnDesc) : Bool :=
  decide (a.ctxs &&& b.ctxs ≠ 0) || decide (a.ports &&& b.ports ≠ 0) || decide (a.pairs &&& b.pairs ≠ 0) || decide (a.psqs &&& b.psqs ≠ 0) ||
  decide (a.tmrs &&& b.tmrs ≠ 0) || decide (a.pwms &&& b.pwms ≠ 0) || decide (a.mbxs &&& b.mbxs ≠ 0) ||
  a.doorbells.any b.doorbells.contains

/-- Regions of two parcels overlap (01 R36). -/
def regionClash (a b : FnDesc) : Bool :=
  a.parcel != b.parcel && a.regions.any fun r => b.regions.any fun q =>
    r.tile == q.tile && decide (r.first < q.first + q.count) && decide (q.first < r.first + r.count)

/-! ## The key port's reads in step 5 (04 R131 to R134) -/

/-- What the key port returns to a read of the start sequence, by KP_OP and KP_IDX; `none` where the read fails. -/
def kpRead (env : StartEnv) (op idx : Nat) : Option Word :=
  (env.answers[(if op = 0 then 0 else if op = 1 then 8 else 20) + idx]?).join

/-- The words 0 to `n` - 1 of a value, least significant first; `none` where one of the reads failed. -/
def kpWords (env : StartEnv) (op n : Nat) : Option Nat :=
  (List.range n).foldr (fun i r => match kpRead env op i, r with | some w, some v => some (w.toNat + 2 ^ 32 * v) | _, _ => none) (some 0)

/-- The root key. -/
def envRoot (env : StartEnv) : Option (BitVec 256) := (kpWords env 0 8).map (BitVec.ofNat 256)
/-- The keeper key digest, byte i in bits 8i+7:8i. -/
def envDigest (env : StartEnv) : Option (BitVec 384) := (kpWords env 1 12).map (BitVec.ofNat 384)
/-- Counter `i`. -/
def envCounter (env : StartEnv) (i : Nat) : Option (BitVec 16) := (kpRead env 2 i).map fun w => w.setWidth 16

/-! ## The header -/

/-- The parts of a header (R99). -/
def hdrLen (b : List Byte) : Nat := num b 6 2
def hdrParcels (b : List Byte) : List (Nat × ParcelEntry) := (List.range (num b 9 1)).map fun i => parcelEnt ((b.drop (0xA0 + 64 * i)).take 64)
def hdrFnBytes (b : List Byte) : List (List Byte) := (List.range (num b 10 1)).map fun i => (b.drop (0xA0 + 64 * num b 9 1 + 576 * i)).take 576
def hdrFns (b : List Byte) : List FnDesc := (hdrFnBytes b).map fnDescOf
def hdrKey (b : List Byte) : List Byte := (b.drop 0x40).take 96

/-- Parcel table in order (0x0C). -/
def parcelsOk (b : List Byte) (size : Nat) : Bool :=
  let n := num b 9 1
  decide (1 ≤ n ∧ n ≤ 16) && ((List.range n).all fun i => parcelEntOk ((b.drop (0xA0 + 64 * i)).take 64) size) &&
  noClash parcelClash (hdrParcels b) && (hdrParcels b).any fun e => e.1 == 0

/-- The fields of 0x11. -/
def hdrFieldsOk (b : List Byte) (n : Nat) : Bool :=
  let ps := (hdrParcels b).map Prod.fst
  let tk := num b 0x15 1
  decide (num b 11 1 < 2) && decide (num b 0x12 1 < 16) && zeros b 0x20 32 && decide (num b 10 1 ≤ 64) && (tk == 0xFF || ps.contains tk) &&
  (hdrFnBytes b).all fun d => fnDescOk d n ps

/-- A pair whose ingress port its descriptor does not bind (12 R432): the port of the pair's number. -/
def pairPortsOk (d : FnDesc) : Bool := decide (d.pairs &&& d.ports = d.pairs)

/-- The reason for refusing a header slot (R120), of its bytes from MAGIC on; 0 accepted. `pins`: sequencers of different parcels share a GP
pin in the image (16 R548). -/
def hdrRefusal (s : State) (env : StartEnv) (b : List Byte) (pins : Bool) : Nat :=
  let len := hdrLen b
  let f := num b 12 4
  let size := 2 ^ ((env.sfdp.map Sfdp.log2size).getD 0)
  let cap := ((env.sfdp.map Sfdp.cap).getD 0).toNat
  let div := num b 0x13 1
  if b.take 4 ≠ [0x47, 0x56, 0x58, 0x49] || num b 4 2 ≠ 1 then 0x04
  else if len < 0x100 || 0x9500 < len || len < 0xA0 + 64 * num b 9 1 + 576 * num b 10 1 + 96 then 0x05
  else if num b 8 1 ≠ s.nTiles then 0x06
  else if (envRoot env).isNone || some (digestBits (sha384 (hdrKey b))) ≠ envDigest env then 0x07
  else if !ecdsaOk (hdrKey b) (b.take (len - 96)) ((b.drop (len - 96)).take 96) then 0x08
  else if f < 25000000 || 156250000 < f then 0x09
  else if num b 0x10 2 < 400 || 1023 < num b 0x10 2 then 0x0A
  else if 3 < num b 0x14 1 || cap < num b 0x14 1 || div = 0 || 64 < div || 100000000 * div < 4 * f then 0x0B
  else if !parcelsOk b size then 0x0C
  else if (List.range 17).any (fun i => (envCounter env i).isNone) || num b 0x16 2 < ((envCounter env 16).getD 0).toNat then 0x0D
  else if !noClash bindClash (hdrFns b) then 0x0E
  else if !noClash regionClash (hdrFns b) then 0x0F
  else if pins then 0x10
  else if !hdrFieldsOk b s.nTiles then 0x11
  else if !(hdrFns b).all pairPortsOk then 0x12
  else 0

/-- The accepted header. -/
def hdrOf (slot : Bool) (b : List Byte) : Hdr :=
  { slot, timekeeper := num b 0x15 1, epoch := BitVec.ofNat 16 (num b 0x16 2), imageId := BitVec.ofNat 64 (num b 0x18 8),
    parcels := hdrParcels b, fns := hdrFns b, keyX := beVal ((b.drop 0x40).take 48), keyY := beVal ((b.drop 0x70).take 48) }

/-! ## Directories -/

/-- Section entry (R103). -/
structure SecEnt where
  fn : Nat
  kind : Nat
  epoch : Nat
  tile : Nat
  quad : Nat
  enc : Bool
  off : Nat
  len : Nat
  dest : Nat
  iv : List Byte
  tag : List Byte
  digest : List Byte
  /-- bytes 0x00 to 0x13, the additional authenticated data (04 R138) -/
  head : List Byte
  deriving DecidableEq, Repr

/-- A section entry from its 128 bytes. -/
def secEntOf (b : List Byte) : SecEnt :=
  { fn := num b 0 1, kind := num b 1 1, epoch := num b 2 2, tile := num b 4 1, quad := num b 5 1, enc := (num b 6 2).testBit 0,
    off := num b 8 4, len := num b 12 4, dest := num b 16 4, iv := (b.drop 0x14).take 12, tag := (b.drop 0x20).take 16,
    digest := (b.drop 0x30).take 48, head := b.take 20 }

/-- DIR_LEN, and the directory's bytes from the flash (R98, R102). -/
def dirBytes (s : State) (e : ParcelEntry) (slot : Bool) : List Byte :=
  flashBytes s (e.areaBase + slot.toNat * 0x10000) (0x70 + 128 * 255 + 96)

/-- The reason for refusing a directory of parcel `p`; 0 accepted. -/
def dirRefusal (p : Nat) (e : ParcelEntry) (b : List Byte) : Nat :=
  let n := num b 5 1
  let len := num b 6 2
  let key := (b.drop 0x10).take 96
  if b.take 4 ≠ [0x47, 0x56, 0x58, 0x44] || num b 4 1 ≠ p || n = 0 || len ≠ 0x70 + 128 * n + 96 || !zeros b 8 8 then 0x18
  else if digestBits (sha384 key) ≠ e.keyDigest then 0x19
  else if !ecdsaOk key (b.take (len - 96)) ((b.drop (len - 96)).take 96) then 0x1A
  else 0

/-- The section entries of a directory, in order. -/
def dirEnts (b : List Byte) : List SecEnt := (List.range (num b 5 1)).map fun i => secEntOf ((b.drop (0x70 + 128 * i)).take 128)

/-- SHA-384 of a directory (04 R141). -/
def dirDigest (b : List Byte) : List Byte := sha384 (b.take (num b 6 2))

/-! ## Schedules (R105) -/

/-- A context record. -/
def ctxRecOf (b : List Byte) : CtxRec :=
  { ctx := num b 0 2 % 2048, eng := num b 2 1 % 16, cls := num b 3 1, prio := num b 4 1, budget := num b 6 2,
    clean := decide (num b 0 2 < 2048) && decide (num b 2 1 < 16) && zeros b 5 1 }

/-- A source record. -/
def srcRecOf (b : List Byte) : SrcRec :=
  { tile := num b 0 2 / 1024 % 8, n := num b 0 2 % 1024, tgt := num b 2 2, prio := num b 4 1, deadline := num b 6 2,
    clean := decide (num b 0 2 < 0x2000) && zeros b 5 1 }

/-- A pair record. -/
def pairRecOf (b : List Byte) : PairRec :=
  { pair := num b 0 1 % 64, ctx := num b 2 2, budget := num b 4 2, clean := decide (num b 0 1 < 64) && zeros b 1 1 && zeros b 6 2 }

/-- The 8-byte record `i` of a schedule. -/
def schedRec (b : List Byte) (i : Nat) : List Byte := (b.drop (16 + 8 * i)).take 8

/-- A schedule section. -/
def schedOf (b : List Byte) : Sched :=
  let nc := num b 2 2; let ns := num b 4 2; let np := num b 6 2
  { compat := BitVec.ofNat 16 (num b 0 2), ctxs := (List.range nc).map fun i => ctxRecOf (schedRec b i),
    srcs := (span nc ns).map fun i => srcRecOf (schedRec b i), pairs := (span (nc + ns) np).map fun i => pairRecOf (schedRec b i),
    clean := zeros b 8 8 && decide (16 + 8 * (nc + ns + np) ≤ b.length) }

end Sys2Proof.Machine
end

