-- ==== Sys2Proof/Machine/Load.lean ====
section
/-! DEFINITION. Taking a function out of the stores, and placing its sections (03 R109, R110, R113, R123; 08 R324 to R327). -/
namespace Sys2Proof.Machine

/-! ## Out of the stores -/

/-- A block placed whole: its tag, its place in the scrub's sequence and the partner's copy (08 R291, R327). -/
def blockPlaced (s : State) (t b : Nat) : State := mirrorPut (markGood s t (posOf b)) t b

/-- A quad that sleeps holds nothing (19 R642): a block placed in part keeps the rest from its mirror. -/
def blockBase (s : State) (t b : Nat) : State :=
  if 16384 ≤ b && !powered s t (domQ ((b - 16384) / 685)) && (getMirror s (mirKey t b)).placed then
    writeBlock s t b (getMirror s (mirKey t b)).data
  else s

/-- The mirror block of a writable-store key, with its tile. -/
def uwBlock (k : Nat) : Nat × Nat := (k / 8192, wsBlock (k / 2048 % 4) (k % 2048 / 3))
/-- The mirror block of a decode-entry key. -/
def decBlock (k : Nat) : Nat × Nat := (k / 128, wsBlock (k / 32 % 4) (683 + k % 32 / 16))

/-- A context is inside a microsequence that began at one of function `f`'s entries (08 R326 step 2). -/
def insideOf (s : State) (f : Nat) : Bool :=
  s.ctxs.any fun e => match e.2.micro with
    | some m => (getDec s (decKey (e.1 / 256) (engOf s e.1 / 4) m.op.toNat)).fn == some f
    | none => false

/-- A change of writable-store entries `ks`, with their blocks and mirror copies (08 R291, R327): `blk` an entry's tile and block, `put` its
change. -/
def placeAll (s : State) (ks : List Nat) (blk : Nat → Nat × Nat) (put : State → Nat → State) : State :=
  let s := ks.foldl (fun s k => blockBase s (blk k).1 (blk k).2) s
  let s := ks.foldl put s
  (ks.map blk).eraseDups.foldl (fun s b => blockPlaced s b.1 b.2) s

/-- The function's decode entries and microwords. -/
def decOfFn (s : State) (f : Nat) : List Nat := (s.dec.filter fun e => e.2.fn == some f).map Prod.fst
def uwOfFn (s : State) (f : Nat) : List Nat := (s.wstore.filter fun e => e.2.fn == some f).map Prod.fst

/-- VALID ← 0 in the function's decode entries, and in their mirror copies (08 R326 step 1). -/
def decOff (s : State) (f : Nat) : State :=
  placeAll s (decOfFn s f) decBlock fun s k => modDec s k fun x => { x with w := setBit x.w 31 false }

/-- The function's code blocks are zero, with tag 0 and no placing function; so are their mirror copies. -/
def zeroCode (s : State) (f : Nat) : State :=
  (s.codeTag.filter fun e => e.2.fn == some f).foldl (fun s e =>
    let t := e.1 / 16384; let b := e.1 % 16384
    blockPlaced (setCodeTag { s with code := eraseBytes s.code (codeAddr t (b * 64)) 64 } e.1 {}) t b) s

/-- The function's microwords and decode entries are zero (08 R326 step 3). -/
def zeroMicro (s : State) (f : Nat) : State :=
  let s := placeAll s (uwOfFn s f) uwBlock fun s k => setUWord s k {}
  placeAll s (decOfFn s f) decBlock fun s k => setDec s k {}

/-- Tag 0 on the function's code blocks (R113). -/
def untagCode (s : State) (f : Nat) : State :=
  (s.codeTag.filter fun e => e.2.fn == some f).foldl (fun s e => modCodeTag s e.1 fun x => { x with tag := 0 }) s

/-- Tag 0 on the function's microwords (R113). -/
def untagMicro (s : State) (f : Nat) : State := (uwOfFn s f).foldl (fun s k => modUWord s k fun x => { x with tag := 0 }) s

/-- V0 to V15, program counter, SW and TSBP of the function's contexts zero, their traverse buffers empty (04 R158). -/
def ctxsGone (s : State) (f : Nat) : State := (ctxsOfFn s f).foldl (fun s c => ctxWritten (zeroCtx s c) c) s

/-- What every entry to LOADING and UNLOADED does to the function's units (R113; 04 R158, 08 R326, 10 R381, 15 R539, R544, 16 R549). -/
def fnGone (s : State) (f : Nat) : State :=
  let cs := ctxsOfFn s f
  let s := decOff s f
  let s := freeLocks s fun c => cs.contains c
  let s := ctxsGone s f
  let s := clearFnSrcs s f
  let s := (mbxsOfFn s f).foldl mbxReset s
  let s := (mbxsOfFn s f).foldl (fun s m => modMbx s m fun x => { x with msgAt := none }) s
  let s := (seqsOfFn s f).foldl (fun s n => modSeq s n fun x => { x with txAt := none, rxAt := none }) s
  let s := seqRelease s f
  wdSync ((tilesOf s).foldl freezeSync s)

/-- The notice of a state entered (R118). -/
def fnNotice (s : State) (f : Nat) : State := raiseEdge s 0 (0x380 + f)

/-- A port whose function enters UNLOADED (11 R401): inactive, link down, rings and queues empty, every live
register at its reset value (R395); the staged copies stay (03 R113). -/
def unloadPort (s : State) (p : Nat) : State :=
  let s := (List.range 8).foldl (fun s q => setTxQ (setFlow s (flowKey p q) {}) (txKey p q) {}) s
  let s := { s with regs := s.regs.filter fun e => !(decide (pa p 0 ≤ e.1) && decide (e.1 < pa p 0x800)) }
  setPort s p { sent := (getPort s p).sent }

/-- A pair whose function enters UNLOADED (11 R401, 12 R436): no frame. -/
def unloadPair (s : State) (k : Nat) : State :=
  let x := getPair s k
  setPair s k { written := x.written, asleep := x.asleep }

/-- The fixed sources that the function's records named are named by them no longer (10 R369). -/
def unnameFixed (s : State) (f : Nat) : State :=
  s.srcs.foldl (fun s e =>
    if e.2.loaded && e.2.fn == f && decide (0x380 ≤ e.1 % 1024) then
      modSrc s e.1 fun x => { x with loaded := false, fn := 0, host := false, prio := 0, tgt := 0 } else s) s

/-- Entry to UNLOADED (R113): the function is out of every store; ports, pairs, PWM pairs and timers are as after reset; zero-fill follows
behind. -/
def fnLeave (s : State) (f reason : Nat) : State :=
  let s := untagCode (fnGone s f) f
  let s := if insideOf s f then s else untagMicro s f
  let s := (portsOfFn s f).foldl unloadPort s
  let s := (pairsOfFn s f).foldl unloadPair s
  let s := (pwmsOfFn s f).foldl pwmStop s
  let s := (tmrsOfFn s f).foldl tmrUnload s
  let s := unnameFixed s f
  let s := modFn s f fun x =>
    { x with st := .unloaded, reason := BitVec.ofNat 8 reason, sched := none, epoch := 0, everOn := false, unplaced := false, drainAt := none, zeroing := true, leaving := false }
  fnNotice s f

/-- An unload that waited is carried out, once no context is inside a microsequence of the function's (R113, 08 R326). -/
def leaveDone (s : State) (f : Nat) : State :=
  if (getFn s f).leaving && !insideOf s f then fnLeave s f (getFn s f).reason.toNat else s

/-- FN_CTL.UNLOAD ← 1 in QUIESCENT (R113): out of the decode table and of code memory at once; UNLOADED reads once the microsequences that
began at its entries have ended. -/
def fnUnload (s : State) (f : Nat) : State :=
  leaveDone (modFn (untagCode (decOff s f) f) f fun x => { x with reason := 0, leaving := true }) f

/-- The zero-fill behind an unload is complete (R113); before, an unload that waited. -/
def zeroDone (s : State) (f : Nat) : State :=
  if (getFn s f).zeroing && !insideOf s f then modFn (zeroMicro (zeroCode s f) f) f fun x => { x with zeroing := false } else leaveDone s f

/-! ## Placing -/

/-- The stamp of a write by the loader. -/
def hwAcc (p : Nat) : Acc := { kind := 3, id := 0, parcel := p, priv := 3 }

/-- Tile `t` holds a context of function `f`. A section of code, microcode or decode entries for another tile lies outside the function's
resources (R110): DESIGN CHOICE, the spec names no resource of a function in a tile's stores (notes/assumptions/36.md). -/
def fnOnTile (s : State) (f t : Nat) : Bool := (ctxsOfFn s f).any (· / 256 == t)

/-- Kind 0x01: macro code (R104, R110; 04 R153). -/
def placeCode (s : State) (f p t dest : Nat) (bs : List Byte) : Option State :=
  let blocks := span (dest / 64) (bs.length / 64)
  if dest % 64 ≠ 0 || 0x100000 < dest + bs.length || !fnOnTile s f t ||
     blocks.any (fun b => match (getCodeTag s (t * 16384 + b)).fn with | some g => g != f | none => false) then none
  else
    let s := { s with code := writeBytes 0 s.code (codeAddr t dest) bs }
    some (blocks.foldl (fun s b => blockPlaced (setCodeTag s (t * 16384 + b) { tag := BitVec.ofNat 4 p, fn := some f }) t b) s)

/-- Kind 0x02: customer microcode (08 R324). -/
def placeMicro (s : State) (f p t q dest : Nat) (bs : List Byte) : Option State :=
  let n := bs.length / 20
  let ks := span (uwKey t q (dest - 0x1800)) n
  if dest < 0x1800 || 0x2000 < dest + n || 4 ≤ q || !fnOnTile s f t ||
     ks.any (fun k => match (getUWord s k).fn with | some g => g != f | none => false) then none
  else
    let k0 := uwKey t q (dest - 0x1800)
    some (placeAll s ks uwBlock fun s k => setUWord s k { w := BitVec.ofNat 160 (num bs (20 * (k - k0)) 20), tag := BitVec.ofNat 4 p, fn := some f })

/-- One decode entry word: left, placed, or refused (08 R321, R323, R325). -/
def placeDecOne (f p t q n : Nat) (w : Word) (r : Option State) : Option State :=
  r.bind fun s =>
    if !bit w 31 || fld w 29 2 = 3 then some s
    else
      let k := decKey t q (n - 0xE0)
      let e := fld w 0 13
      if n < 0xE0 || 0xFF < n || fld w 25 4 ≠ p || (fld w 29 2 = 0 && p ≠ 0) || fld w 16 9 ≠ 0 || e < 0x1800 || 0x1FFF < e ||
         (getUWord s (uwKey t q (e - 0x1800))).fn ≠ some f || (match (getDec s k).fn with | some g => g != f | none => false) then none
      else some (placeAll s [k] decBlock fun s k => setDec s k { w, fn := some f })

/-- Kind 0x03: decode entries. -/
def placeDec (s : State) (f p t q dest : Nat) (bs : List Byte) : Option State :=
  if 4 ≤ q || !fnOnTile s f t then none
  else (List.range (bs.length / 4)).foldl (fun r i => placeDecOne f p t q (dest + i) (BitVec.ofNat 32 (num bs (4 * i) 4)) r) (some s)

/-- Kind 0x04: a second schedule makes the function's schedule malformed (exactly one per function). -/
def placeSched (s : State) (f : Nat) (bs : List Byte) : State :=
  modFn s f fun x => { x with sched := some (match x.sched with | none => schedOf bs | some c => { c with clean := false }) }

/-- Kind 0x05: initial data inside the function's regions. -/
def placeData (s : State) (f t dest : Nat) (bs : List Byte) : Option State :=
  if (span (dest / 256) ((dest % 256 + bs.length + 255) / 256)).all (granOfFn s f t) then some (hwWrite s t dest bs) else none

/-- Kind 0x06: a sequencer program of a sequencer of the function (16 R554). -/
def placeProg (s : State) (f t dest : Nat) (bs : List Byte) : Option State :=
  let n := t * 32 + dest
  let ws := (List.range 32).map fun i => (i, BitVec.ofNat 32 (num bs (4 * i) 4))
  if 32 ≤ dest || !(seqsOfFn s f).contains n || bs.length < 128 || !(ws.all fun x => progOk x.2) then none
  else some (ws.foldl (fun s x => setRg s (qa n (0x40 + 4 * x.1)) x.2) s)

/-- One record of kind 0x07: a register of a unit of the function, a fixed source that its parcel owns (10 R366), or the TSBP of one of
its contexts (05 R194); an all-zero record is padding. -/
def placeSetting (f p t off : Nat) (v : Word) (r : Option State) : Option State :=
  r.bind fun s =>
    if off = 0 && v = 0 then some s
    else if 0x5D0000 ≤ off && off < 0x5E0000 && off % 256 = 0x0C && (ctxsOfFn s f).contains (t * 256 + (off - 0x5D0000) / 256) then
      match winTsbp s (t * 256 + (off - 0x5D0000) / 256) v with
      | (s, .ok) => some s
      | _ => none
    else match unitDesc s t off with
      | none => none
      | some d =>
        let mine := d.unit == some (some f) || (d.unit.isNone && (srcOfOff off).isSome && d.own == p)
        if !mine then none
        else match unitWrite s d (hwAcc p) t off v false with
          | (s, .ok) => some s
          | _ => none

/-- Kind 0x07. -/
def placeSettings (s : State) (f p t : Nat) (bs : List Byte) : Option State :=
  (List.range (bs.length / 8)).foldl (fun r i => placeSetting f p t (num bs (8 * i) 4) (BitVec.ofNat 32 (num bs (8 * i + 4) 4)) r) (some s)

/-- Tile `t` can be reached from tile 0 and holds memory (13 R485). -/
def reachable (s : State) (t : Nat) : Bool := t == 0 || (powered s t domBUF && (routeOf s 0 t).isSome)

/-- A section's contents placed; `none` where its destination is refused (0x1F). On a tile that is not reachable nothing is placed
(13 R485). A section of a KIND that R104 does not list is refused likewise: DESIGN CHOICE, the spec names no code for it
(notes/assumptions/36.md). -/
def placeSec (s : State) (f p : Nat) (x : SecEnt) (bs : List Byte) : Option State :=
  if x.kind = 4 then some (placeSched s f bs)
  else if s.nTiles ≤ x.tile then none
  else if !reachable s x.tile then some (modFn s f fun y => { y with unplaced := true })
  else match x.kind with
    | 1 => placeCode s f p x.tile x.dest bs
    | 2 => placeMicro s f p x.tile x.quad x.dest bs
    | 3 => placeDec s f p x.tile x.quad x.dest bs
    | 5 => placeData s f x.tile x.dest bs
    | 6 => placeProg s f x.tile x.dest bs
    | 7 => placeSettings s f p x.tile bs
    | _ => none

/-- A section's payload from the flash (R103; 04 R138), or the reason for refusing it: 0x1F for a LENGTH or FLASH_OFF that R103 or R98 does not
allow and for one that leaves the parcel's area, which is a DESIGN CHOICE, the spec naming no code (notes/assumptions/36.md). -/
def secPayload (s : State) (p : Nat) (e : ParcelEntry) (x : SecEnt) : Nat × List Byte :=
  if x.len = 0 || x.len % 64 ≠ 0 || x.off < 0x20000 || e.areaSize < x.off + x.len then (0x1F, [])
  else
    let st := flashBytes s (e.areaBase + x.off) x.len
    if sha384 st ≠ x.digest then (0x1B, [])
    else if x.enc then
      match (s.sec.secKeys.find? fun k => k.1 == p).bind fun k => gcmOpen (leBytes 32 k.2.toNat) x.iv x.head st x.tag with
      | some b => (0, b)
      | none => (0x1C, [])
    else (0, st)

/-- One section of function `f` loaded, unless an earlier one was refused: the state, the reason, the epoch so far. -/
def loadOne (f p : Nat) (e : ParcelEntry) (r : State × Nat × Option Nat) (x : SecEnt) : State × Nat × Option Nat :=
  let s := r.1
  if r.2.1 ≠ 0 then r
  else
    let c := secPayload s p e x
    if c.1 ≠ 0 then (s, c.1, r.2.2)
    else if x.epoch < (rg s (arcA p)).toNat then (s, 0x1D, r.2.2)
    else if r.2.2.isSome && r.2.2 != some x.epoch then (s, 0x1E, r.2.2)
    else match placeSec s f p x c.2 with
      | some s => (s, 0, some x.epoch)
      | none => (s, 0x1F, r.2.2)

/-- A load ends in UNLOADED with a reason: what it placed is zero-filled again (R109, R123). -/
def loadRefused (s : State) (f reason : Nat) : State :=
  let s := fnLeave (zeroMicro (zeroCode s f) f) f reason
  modFn s f fun x => { x with zeroing := false }

/-- The load of function `f` is over, with a reason and the epoch of its sections: QUIESCENT with its contexts PARKED, or refused. A function
that the directory gives no section stays without accepted sections. -/
def fnLoadEnd (s : State) (f reason : Nat) (ep : Option Nat) : State :=
  match reason, ep with
  | 0, some e =>
    let s := modFn s f fun x => { x with st := .quiescent, reason := 0, epoch := BitVec.ofNat 16 e }
    let s := (ctxsOfFn s f).foldl (fun s c => modCtx s c fun x => { x with st := .parked }) s
    fnNotice s f
  | c, _ => loadRefused s f c

/-- The sections of function `f` in a directory, decode entries last (08 R325). -/
def loadFn (s : State) (f p : Nat) (e : ParcelEntry) (ents : List SecEnt) : State :=
  let mine := ents.filter fun x => x.fn == f
  let r := ((mine.filter fun x => x.kind != 3) ++ mine.filter fun x => x.kind == 3).foldl (loadOne f p e) (s, 0, none)
  fnLoadEnd r.1 f r.2.1 r.2.2

/-- Entry to LOADING (R112, R123): code zero-filled, entries invalid. -/
def fnLoading (s : State) (f : Nat) : State :=
  let s := zeroCode (fnGone s f) f
  modFn s f fun x => { x with st := .loading, reason := 0, sched := none, epoch := 0, unplaced := false }

end Sys2Proof.Machine
end

