-- ==== Sys2Proof/Machine/Functions.lean ====
section
/-! DEFINITION. Function states, the enable check, drains, reloads (03 R85 to R89 of 02, R112 to R126) and the watchdogs (09 R360 to
R364). -/
namespace Sys2Proof.Machine

/-! ## The enable check (R119) -/

/-- Context records of function `f`'s loaded schedule. -/
def schedCtxs (s : State) (f : Nat) : List CtxRec := ((getFn s f).sched.map Sched.ctxs).getD []

/-- Other functions that are RUNNING or DRAINING. -/
def othersUp (s : State) (f : Nat) : List Nat := (List.range (nFn s)).filter fun g => g != f && isUp s g

/-- Every domain that holds a bound unit is powered and acknowledged, and its sections are placed (0x24; 09 R359, 13 R485). -/
def domainsUp (s : State) (f : Nat) : Bool :=
  !(getFn s f).unplaced && ((tilesOfFn s f).all fun t => reachable s t && powered s t domBUF) &&
  (((schedCtxs s f).filter fun r => (ctxsOfFn s f).contains r.ctx).all fun r => quadUp s (r.ctx / 256) (r.eng / 4)) &&
  ((portsOfFn s f ++ pairsOfFn s f).all fun p => powered s (p / 8) domPORT) && (seqsOfFn s f).all fun n => powered s (n / 32) domPIN

/-- The context records of the other functions on engine `e` of tile `t`. -/
def othersOn (s : State) (f t e : Nat) : List CtxRec :=
  ((othersUp s f).flatMap (schedCtxs s)).filter fun r => r.ctx / 256 == t && r.eng == e

/-- All context records on that engine after the enable. -/
def recsOn (s : State) (f t e : Nat) : List CtxRec :=
  ((schedCtxs s f).filter fun r => r.ctx / 256 == t && r.eng == e) ++ othersOn s f t e

/-- A source record keeps R369 and R653. -/
def srcRecOk (s : State) (f : Nat) (r : SrcRec) : Bool :=
  r.clean && decide (r.tile < s.nTiles) &&
  (r.tgt == 0xFFFF || ((ctxsOfFn s f).contains r.tgt && r.tgt / 256 == r.tile)) &&
  (if r.n ≤ 0x37F then srcFn s r.tile r.n == some f
   else decide (r.n ≤ 0x3EF) && srcExists r.tile r.n && srcOwner s r.tile r.n == fnParcel s f &&
     !(othersUp s f).any fun g => ((getFn s g).sched.map Sched.srcs).getD [] |>.any fun q => q.tile == r.tile && q.n == r.n)

/-- The pair records (12 R434): exactly one for each bound pair, and none other. -/
def pairRecsOk (s : State) (f : Nat) (c : Sched) : Bool :=
  let ps := pairsOfFn s f
  (c.pairs.all fun r => r.clean && ps.contains r.pair && r.ctx / 256 == r.pair / 8 &&
    c.ctxs.any fun x => x.ctx == r.ctx && x.cls == 1 && (ctxsOfFn s f).contains x.ctx) &&
  ps.all fun k => (c.pairs.filter fun r => r.pair == k).length == 1

/-- The schedule is present and well formed, and every pair has an egress (0x27). That a context record missing or doubled for a bound
context, or a pair record of a pair not bound, makes it malformed is a DESIGN CHOICE (notes/assumptions/36.md). -/
def schedOk (s : State) (f : Nat) : Bool :=
  match (getFn s f).sched with
  | none => false
  | some c =>
    let cs := ctxsOfFn s f
    c.clean && (c.ctxs.all fun r => r.clean && cs.contains r.ctx && decide (r.cls ≤ 1) && decide ((recsOn s f (r.ctx / 256) r.eng).length ≤ 16)) &&
    (cs.all fun k => (c.ctxs.filter fun r => r.ctx == k).length == 1) &&
    c.srcs.all (srcRecOk s f) && pairRecsOk s f c && (pairsOfFn s f).all fun k => (getPair s k).written

/-- Slot-mode engines can hold the contexts (0x28, 04 R169). -/
def slotsOk (s : State) (f : Nat) : Bool :=
  (schedCtxs s f).all fun r =>
    let l := recsOn s f (r.ctx / 256) r.eng
    let ps := l.map fun x => ctxParcel s x.ctx
    !ps.any (quiet s) ||
    ((l.all fun x => x.cls == 0) && decide (((List.range 16).filter ps.contains).length ≤ 2) &&
     (List.range 16).all fun p => decide ((ps.filter (· == p)).length ≤ 8))

/-- The counted functions: of the same parcel, RUNNING or DRAINING. -/
def counted (s : State) (f : Nat) : List Nat := (othersUp s f).filter fun g => fnParcel s g == fnParcel s f

/-- Epochs at most one apart (0x25). -/
def epochsOk (s : State) (f : Nat) : Bool :=
  let es := (f :: counted s f).map fun g => (getFn s g).epoch.toNat
  es.all fun a => es.all fun b => decide (a ≤ b + 1)

/-- COMPAT_LO of a function's schedule. -/
def compatLo (s : State) (f : Nat) : Nat := ((getFn s f).sched.map fun c => c.compat.toNat).getD 0

/-- COMPAT_LO both ways (0x26). -/
def compatOk (s : State) (f : Nat) : Bool :=
  (counted s f).all fun g => decide (compatLo s g ≤ (getFn s f).epoch.toNat) && decide (compatLo s f ≤ (getFn s g).epoch.toNat)

/-- The contexts that pair records name, of `f` and of the functions that are up (02 R88). -/
def pairCtxs (s : State) (f : Nat) : List Nat :=
  (f :: othersUp s f).flatMap fun g => ((((getFn s g).sched.map Sched.pairs).getD []).map PairRec.ctx)

/-- The other hard-class records beside context record `r` on its engine. -/
def hardBeside (s : State) (f : Nat) (r : CtxRec) : List CtxRec :=
  (recsOn s f (r.ctx / 256) r.eng).filter fun x => x.cls == 1 && x.ctx != r.ctx

/-- R88 of one context record: 0x34. -/
def checkCtx (s : State) (f : Nat) (r : CtxRec) : Nat :=
  let ps := pairCtxs s f
  if r.cls == 1 && (hardBeside s f r).any fun x => ps.contains r.ctx || ps.contains x.ctx then 0x34 else 0

/-- R86 of one source record, at 2600 ps a step. -/
def checkSrc (s : State) (f : Nat) (r : SrcRec) : Nat :=
  if r.deadline = 0 then 0
  else match (schedCtxs s f).find? fun x => x.ctx == r.tgt && x.cls == 1 with
    | none => 0x30
    | some x =>
      if 1000 * r.deadline < 12000 + 2600 * (x.budget + ((hardBeside s f x).map CtxRec.budget).sum) then 0x31 else 0

/-- The byte time, in ns, of the fastest rate that the ingress port's staged MAC_CFG allows (12 R435). -/
def pairByteNs (s : State) (k : Nat) : Nat :=
  let c := sg s (pa k 0)
  if fld c 6 2 = 0 then byteNs (BitVec.ofNat 2 (fld c 4 2)) else 8

/-- R87 of one pair record. -/
def checkPair (s : State) (r : PairRec) : Nat :=
  let b := pairByteNs s r.pair
  let d := 24 + 8 * fld (sg s (ka r.pair 0)) 4 3
  if 1000 * (d * b) < 2600 * r.budget then 0x32 else if 1000 * (16 * b) < 2600 * r.budget then 0x33 else 0

/-- The timing checks of 02 R86 to R88 in the order of R89: contexts, sources, pairs. -/
def timingCheck (s : State) (f : Nat) : Nat :=
  let c := ((getFn s f).sched).getD {}
  ((c.ctxs.map (checkCtx s f) ++ c.srcs.map (checkSrc s f) ++ c.pairs.map (checkPair s)).find? fun r => r != 0).getD 0

/-- The reason with which an enable is refused; 0 where it is accepted (R119). -/
def enableCheck (s : State) (f : Nat) : Nat :=
  if !domainsUp s f then 0x24
  else if !schedOk s f then 0x27
  else if !slotsOk s f then 0x28
  else if !epochsOk s f then 0x25
  else if !compatOk s f then 0x26
  else timingCheck s f

/-! ## Accepted enables -/

/-- General sources bound to function `f`: by its DOORBELLS list and by the source fields of its units (10 R653). -/
def srcsOfFn (s : State) (f : Nat) : List (Nat × Nat) :=
  ((fnDesc s f).map FnDesc.doorbells).getD [] ++
  (tilesOf s).flatMap fun t => ((srcFields t).filter fun x => binder s x.sel x.res == some f).map fun x => (t, fld (sg s x.addr) x.lo 10)

/-- The bindings of the function's sources (10 R391): every general source it binds, then its records. -/
def loadSrcs (s : State) (f : Nat) : State :=
  let s := s.srcs.foldl (fun s e =>
    if e.2.loaded && e.2.fn == f then modSrc s e.1 fun x => { x with loaded := false, fn := 0, host := false, prio := 0, tgt := 0 } else s) s
  let s := ((srcsOfFn s f).filter fun x => x.2 ≤ 0x37F).foldl (fun s x =>
    modSrc s (x.1 * 1024 + x.2) fun y => { y with loaded := true, fn := f, host := false, prio := 0, tgt := 256 }) s
  (((getFn s f).sched.map Sched.srcs).getD []).foldl (fun s r =>
    modSrc s (r.tile * 1024 + r.n) fun y =>
      { y with loaded := true, fn := f, host := r.tgt == 0xFFFF, prio := BitVec.ofNat 8 r.prio, tgt := if r.tgt = 0xFFFF then 0 else r.tgt % 256 }) s

/-- A block of the context file is lost (R502). Blocks 0 to 3 of a context hold V0 to V15 and block 4 its program counter, SW and TSBP
(notes/assumptions/25.md); the saved state is that of a context without a slot. -/
def ctxBlockLost (s : State) (t i : Nat) : State :=
  let c := t * 256 + i / 8
  let s := modCtx s c fun x =>
    if x.resident then x
    else if i % 8 < 4 then { x with v := (List.range 4).foldl (fun v j => vset v (i % 8 * 4 + j) 0) x.v }
    else if i % 8 = 4 then { x with pc := 0, priv := 0, exl := false, ie := false, rpt := false, tsbp := 0 }
    else x
  writeFault s t { outcome := 2, cls := 0x09, parcel := ctxParcel s c, ctx := c, unit := 0x05, addr := ta t (0x5D0000 + i / 8 * 256), ack := true }

/-- A context's blocks are read as it becomes resident: those whose CRC does not hold are found (R493, R502; 05 R181). -/
def ctxFound (s : State) (c : Nat) : State :=
  (List.range 8).foldl (fun s i =>
    let pos := ctxPos (c % 256) + i
    if isBad s (c / 256) pos then ctxBlockLost (markGood s (c / 256) pos) (c / 256) (c % 256 * 8 + i) else s) s

/-- The enable is accepted (R112, R115, R121, R122; 05 R181, 10 R391, 11 R401, R408, 16 R560, 17 R576, R596). -/
def fnAccept (s : State) (f : Nat) : State :=
  let tm := (tmrsOfFn s f).map fun n => (n, tr s n 0)
  let s := stagedLive (loadSrcs s f) f
  let s := modFn s f fun x => { x with st := .running, reason := 0, gen := x.gen + 1, everOn := true, drainAt := none }
  let s := (ctxsOfFn s f).foldl (fun s c => residentCtx (ctxFound s c) c) s
  let s := (portsOfFn s f).foldl portEnable s
  let s := tm.foldl (fun s x => tmrEnable s x.1 x.2) s
  let s := (seqsOfFn s f).foldl (fun s n => let s := seqLevels s n; if bit (qr s n 0) 31 then startSeq s n else s) s
  let s := (mbxsOfFn s f).foldl mbxLevel s
  let s := (pwmsOfFn s f).foldl (fun s p => if bit (wr s p 0) 23 then pwmStart s p else s) s
  wdSync ((tilesOf s).foldl freezeSync (fnNotice s f))

/-- FN_CTL.EN ← 1 in QUIESCENT (R112, R119). -/
def fnEnable (s : State) (f : Nat) : State :=
  match enableCheck s f with
  | 0 => fnAccept s f
  | r => modFn s f fun x => { x with reason := BitVec.ofNat 8 r }

/-! ## Drains (R115, R116) -/

/-- FN_CTL.EN ← 0 in RUNNING: DRAINING, with its limit. -/
def fnStop (s : State) (f : Nat) : State :=
  if fnState s f = .running then
    modFn s f fun x => { x with st := .draining, forced := x.forced, drainAt := some (now s 0 + BitVec.ofNat 64 (x.dlim.toNat * 1000000)) }
  else s

/-- Entry to QUIESCENT from DRAINING (R115, 05 R181, R215). -/
def fnQuiet (s : State) (f : Nat) : State :=
  let s := (ctxsOfFn s f).foldl (fun s c =>
    let s := if (getCtx s c).act && (getCtx s c).stopped then abandon s c else s
    ctxWritten (parkCtx s c) c) s
  let s := (seqsOfFn s f).foldl stopSeq s
  let s := modFn s f fun x => { x with st := .quiescent, drainAt := none }
  wdSync (fnNotice s f)

/-- Everything of the drain is done (R116). -/
def fnDrained (s : State) (f : Nat) : Bool :=
  ((ctxsOfFn s f).all fun c => let x := getCtx s c; (!x.act || x.stopped) && x.tb.isEmpty && x.rel.isEmpty) && (portsOfFn s f).all (txEmpty s)

/-- The drain is complete. -/
def drainDone (s : State) (f : Nat) : State := if fnState s f = .draining && fnDrained s f then fnQuiet s f else s

/-- The drain limit has passed (R116, R117). -/
def drainForce (s : State) (f : Nat) : State :=
  match (getFn s f).drainAt with
  | some at_ =>
    if fnState s f = .draining && atOrAfter (now s 0) at_ && !(ctxsOfFn s f).any (heldByDbg s) then
      let s := (ctxsOfFn s f).foldl (fun s c => if (getCtx s c).act then abandon s c else s) s
      let s := (portsOfFn s f).foldl retireAll s
      fnQuiet (modFn s f fun x => { x with forced := true }) f
    else s
  | none => s

/-! ## Reloads (R123, R124; 04 R176) -/

/-- FN_CTL.RELOAD ← 1 is accepted: LOADING, in the queue. -/
def fnReload (s : State) (f : Nat) : State :=
  let s := fnLoading s f
  { s with nvm := { s.nvm with reloads := s.nvm.reloads ++ [f * 2 + (getFn s f).slot.toNat] } }

/-- A seal keeps reloads of parcel `p` waiting (04 R176). -/
def sealHolds (s : State) (p : Nat) : Bool := match s.sec.sealing with | some q => q.target == 16 || q.target == p | none => false

/-- The first reload of the queue starts to read: no program or erase in progress (R96), no seal of its parcel, its own zero-fill done. -/
def reloadBegin (s : State) : State :=
  match s.nvm.reloads with
  | r :: rest =>
    let busy := (s.nvm.cmd.map NvmCmd.issued).getD false
    if s.nvm.reading.isSome || busy || sealHolds s (fnParcel s (r / 2)) || (getFn s (r / 2)).zeroing then s
    else { s with nvm := { s.nvm with reloads := rest, reading := some r, secHits := 0 } }
  | [] => s

/-- The directory of parcel `p` in slot `slot` accepted: measured (04 R141). -/
def dirMeasure (s : State) (p : Nat) (b : List Byte) : State := measure s 0x02 p 0xFF 0 (dirDigest b) [p]

/-- The reload that is reading ends (R112, R123): it waits for zero-fills (R113) and microsequences (08 R326). -/
def reloadEnd (s : State) (readOk : Bool) : State :=
  match s.nvm.reading with
  | none => s
  | some r =>
    let f := r / 2
    let p := fnParcel s f
    if (List.range (nFn s)).any (fun g => (getFn s g).zeroing) || insideOf s f then s
    else
      let s := zeroMicro { s with nvm := { s.nvm with reading := none } } f
      match parcelEntry s p with
      | none => s
      | some e =>
        if !readOk then loadRefused s f 0x20
        else if 2 ≤ s.nvm.secHits then loadRefused s f 0x1B
        else
          let b := dirBytes s e (r % 2 == 1)
          match dirRefusal p e b with
          | 0 => loadFn (dirMeasure s p b) f p e (dirEnts b)
          | c => loadRefused s f c

/-! ## FN_CTL, FN_STATUS, FN_EPOCH (R112, R126) -/

/-- A refused write: the reason shows, the state stays. -/
def fnReason (s : State) (f r : Nat) : State := modFn s f fun x => { x with reason := BitVec.ofNat 8 r }

/-- What a write asks for, judged by R112: UNLOAD first, then RELOAD, then EN. -/
def fnAct (s : State) (f : Nat) (unload reload en : Bool) : State :=
  let st := fnState s f
  let busy := st = .running || st = .draining
  if unload then
    if st = .quiescent then fnUnload s f else if st = .loading then fnReason s f 0x22 else if busy then fnReason s f 0x21 else s
  else if reload then
    if st = .loading then fnReason s f 0x22 else if busy then fnReason s f 0x21 else fnReload s f
  else if en then
    match st with
    | .unloaded => fnReason s f 0x23
    | .loading => fnReason s f 0x22
    | .quiescent => fnEnable s f
    | .running => s
    | .draining => fnReason s f 0x21
  else fnStop s f

/-- DLIM of a written value; 0 is taken as 1. -/
def dlimOf (v : Word) : BitVec 8 := if fld v 8 8 = 0 then 1 else BitVec.ofNat 8 (fld v 8 8)

/-- A write of FN_CTL (R126): by an agent with K only, EN ← 0 and nothing else. One that comes while an unload still waits is judged against
UNLOADED, the state that the unload leaves (R114). -/
def fnCtlWrite (s : State) (acc : Acc) (f : Nat) (v : Word) : State × Done :=
  if !allows s acc 0 (fnParcel s f) rSHD true then
    (if bit v 0 || bit v 2 || bit v 3 then (s, .refused) else (fnStop s f, .ok))
  else
    let x := getFn s f
    let open_ := x.st = .quiescent || x.st = .unloaded
    if !open_ && dlimOf v ≠ x.dlim then (s, .refused)
    else
      let s := if x.leaving then fnLeave s f 0 else s
      (fnAct (modFn s f fun x => { x with dlim := dlimOf v, slot := bit v 4 }) f (bit v 3) (bit v 2) (bit v 0), .ok)

/-- FN_STATUS.STATE. -/
def FnState.code : FnState → Nat | .unloaded => 0 | .loading => 1 | .quiescent => 2 | .running => 3 | .draining => 4

/-- Rights of the function registers; `o` the offset from 0x50_1000. -/
def fnRegDesc (s : State) (o : Nat) : Option Desc :=
  let f := o / 16
  let rd : Rt := { rSWHD with k := true }
  if o % 16 = 12 || o % 4 ≠ 0 then none
  else if nFn s ≤ f then some { rd := { rAll with anyGrant := true } }
  else match o % 16 with
    | 0 => some { own := fnParcel s f, rd, wr := { s := true, h := true, k := true } }
    | 4 => some { own := fnParcel s f, rd, wr := { s := true, h := true } }
    | _ => some { own := fnParcel s f, rd }

/-- Reads. -/
def fnRegRead (s : State) (o : Nat) : Word :=
  let f := o / 16
  let x := getFn s f
  if nFn s ≤ f then 0
  else match o % 16 with
    | 0 => fields [(8, 8, x.dlim.toNat), (4, 1, x.slot.toNat), (0, 1, (decide (x.st = .running)).toNat)]
    | 4 => fields [(24, 8, x.reason.toNat), (16, 4, x.st.code), (15, 1, x.forced.toNat), (0, 8, x.gen.toNat)]
    | _ => fields [(16, 16, compatLo s f), (0, 16, x.epoch.toNat)]

/-- Writes. -/
def fnRegWrite (s : State) (acc : Acc) (o : Nat) (v : Word) : State × Done :=
  if o % 16 = 0 then fnCtlWrite s acc (o / 16) v
  else (modFn s (o / 16) fun x => { x with forced := x.forced && !bit v 15 }, .ok)

/-! ## Watchdogs (09 R360 to R364) -/

/-- The watchdog of parcel `p` is enabled. -/
def wdOn (s : State) (p : Nat) : Bool := bit (rg s (wda p 0)) 28

/-- A kick (R361): ignored while the watchdog is held. -/
def wdKick (s : State) (p : Nat) : State := if wdCounts s p then wdRestart s p else s

/-- The window has run out (R362). -/
def wdExpire (s : State) (p : Nat) : State :=
  if 16 ≤ p || !wdOn s p || !wdCounts s p || !atOrAfter (now s 0) (sget 0 s.sec.wdStart p + BitVec.ofNat 64 (wdWindow s p)) then s
  else
    let s := raiseEdge (modRg s (wda p 4) fun w => setBit w 0 true) 0 (0x3E0 + p)
    let s := writeFault s 0 { outcome := 5, cls := 0x13, parcel := p, unit := 0x13, inst := p }
    let s := if bit (rg s (wda p 0)) 29 then ((List.range (nFn s)).filter fun f => fnParcel s f == p).foldl fnStop s else s
    wdRestart s p

/-- A write of CFG_WDp_CTL (R364). -/
def wdCtl (s : State) (p : Nat) (v : Word) : State :=
  let old := rg s (wda p 0)
  if bit v 31 then wdKick s p
  else if bit old 30 then s
  else wdRestart (setRg s (wda p 0) (v &&& 0x70FFFFFF)) p

/-- CFG_WDp_REM in µs (R360, R364): the full window while held or disabled; 0, its reset value, while the watchdog stands disabled with WIN
at 0. -/
def wdRem (s : State) (p : Nat) : Nat :=
  if !wdOn s p && fld (rg s (wda p 0)) 0 24 = 0 then 0
  else if !wdOn s p || !wdCounts s p then wdWindow s p / 1000
  else (wdWindow s p - (now s 0 - sget 0 s.sec.wdStart p).toNat) / 1000

/-- Rights of the watchdog registers; `o` the offset from 0x50_0A00. -/
def wdDesc (o : Nat) : Option Desc :=
  let p := o / 16
  let rd : Rt := { rSWHD with k := p == 0 }
  let wr : Rt := { rSHD with k := p == 0 }
  match o % 16 with
  | 0 => some { own := p, rd, wr }
  | 4 => some { own := p, rd, wr, w1c := 3 }
  | 8 => some { own := p, rd }
  | _ => none

/-- Reads. -/
def wdRead (s : State) (d : Desc) (acc : Acc) (o : Nat) : State × Word :=
  match o % 16 with
  | 4 => (s, (rg s (0x500A00 + o)) ||| fields [(2, 1, (!wdCounts s (o / 16)).toNat)])
  | 8 => (s, BitVec.ofNat 32 (wdRem s (o / 16)))
  | _ => plainRead s d acc (0x500A00 + o)

/-- Writes. -/
def wdWrite (s : State) (d : Desc) (o : Nat) (v : Word) : State × Done :=
  if o % 16 = 0 then (wdCtl s (o / 16) v, .ok) else (plainWrite s d (0x500A00 + o) v, .ok)

end Sys2Proof.Machine
end

