-- ==== Sys2Proof/Machine/Cfg.lean ====
section
/-! DEFINITION. Tile control registers (01 R46, R47; 03 R97, R110; 09 R356; 15 R526 to R530; 19 R646). -/
namespace Sys2Proof.Machine

/-! ## Mirrored status (15 R528, R529) -/

/-- Mailboxes of tile `t` that hold a message. -/
def mbxBits (s : State) (t : Nat) : Word := ofBits 32 ((List.range 32).filter fun m => !(getMbx s (t * 32 + m)).msgs.isEmpty)

/-- Parcels whose EVC_HSTAT.ANY is 1 on tile `t`. -/
def evtBits (s : State) (t : Nat) : Word := ofBits 32 ((List.range 16).filter fun p => hostAny s t p)

/-- The status words of tile `t`: FLT_STAT, mailboxes, events. -/
def statusOf (s : State) (t : Nat) : Word × Word × Word := (fltStat s t, mbxBits s t, evtBits s t)

/-- Tile 0's copies of another tile's words stand in `regs` under the mirror registers' addresses, the event word at an address of its own. -/
def mirA (t i : Nat) : Nat := 0x503100 + 0x20 * i + 4 * t + (if i = 2 then 0x20 else 0)

/-- The word `i` of tile `t` as tile 0 shows it: its own live, another tile's as last carried. -/
def mirWord (s : State) (t i : Nat) : Word :=
  if s.nTiles ≤ t then 0
  else if t = 0 then (match i with | 0 => (statusOf s 0).1 | 1 => (statusOf s 0).2.1 | _ => (statusOf s 0).2.2)
  else rg s (mirA t i)

/-- CFG_HMIR_EVT before masking. -/
def mirEvt (s : State) : Word := (tilesOf s).foldl (fun w t => w ||| mirWord s t 2) 0

/-- A mirrored mailbox word masked for the reader. -/
def maskMbx (s : State) (acc : Acc) (t : Nat) (w : Word) : Word :=
  w &&& ofBits 32 ((List.range 32).filter fun m => bit w m && holdsOver s acc 0 (ownerOf s (fnOfMbx s (t * 32 + m))))

/-- CFG_HMIR_EVT masked for the reader. -/
def maskEvt (s : State) (acc : Acc) (w : Word) : Word := w &&& ofBits 32 ((List.range 16).filter fun p => bit w p && holdsOver s acc 0 p)

/-- HP_EVT (R526). -/
def hpEvt (s : State) : Word := ofBits 32 ((List.range 32).filter fun r => (grantsOf s r).any fun p => bit (mirEvt s) p)

/-! ## CFG_HP_STAT (15 R530) -/

/-- Key of the reader's entry; none for the keeper. -/
def hpKey (acc : Acc) : Option Nat := if acc.kind = 1 then some acc.id else if acc.kind = 2 then some 32 else none

/-- CFG_HP_STAT as the reader sees it. -/
def hpStatWord (s : State) (acc : Acc) : Word :=
  match hpKey acc with
  | none => 0
  | some k =>
    let h := sget {} s.hp.stat k
    let m := h.open_.getD (0, [])
    fields [(21, 3, m.1 / 32), (16, 5, m.1 % 32), (11, 5, m.2.length), (7, 1, h.slow.toNat), (6, 1, h.fullref.toNat),
            (0, 5, if acc.kind = 1 then acc.id else 0)]

/-- CFG_HP_STAT written: W1C bits of the writer's own entry. -/
def hpStatWrite (s : State) (acc : Acc) (v : Word) : State :=
  match hpKey acc with
  | none => s
  | some _ => modHp s acc fun h => { h with slow := h.slow && !bit v 7, fullref := h.fullref && !bit v 6 }

/-! ## Registers; `o` the offset from 0x50_0000, the fly-through pairs' apart -/

/-- CFG_XRp_INFO.VALID cleared (09 R356). -/
def clearXr (s : State) (t p : Nat) : State :=
  let b := ta t (0x500800 + p * 16)
  if bit (rg s b) 31 then modRg s b fun w => setFld (setBit w 31 false) 20 8 0 else s

/-- Rights and codes. -/
def cfgDesc (s : State) (acc : Acc) (t o : Nat) : Option Desc :=
  let z : Desc := { rd := rAll }
  if o % 4 ≠ 0 then none
  else if o = 0 || o = 4 then some { rd := { rAll with anyDbg := true } }
  else if 0x40 ≤ o && o < 0x4C then some z
  else if 0x800 ≤ o && o < 0x900 then
    let p := (o - 0x800) / 16
    let r : Rt := { rSHD with k := p == 0 }
    some { own := p, rd := r, wr := if o % 16 = 0 then r else rNone }
  else if t ≠ 0 then none
  else if 0x10 ≤ o && o < 0x1C then some z
  else if 0x20 ≤ o && o < 0x30 then nvmDesc s acc o
  else if 0xA00 ≤ o && o < 0xB00 then wdDesc (o - 0xA00)
  else if 0x1000 ≤ o && o < 0x1400 then fnRegDesc s (o - 0x1000)
  else
    let khd : Rt := { k := true, h := true, d := true, every := true }
    if o = 0x3000 then some { rd := khd, wr := khd }
    else if 0x3100 ≤ o && o < 0x3120 then some { rd := rKHD }
    else if (0x3120 ≤ o && o < 0x3140) || o = 0x3140 then some { rd := khd }
    else none

/-- CFG_PART and CFG_TILE (01 R46, R47). -/
def partWord : Word := 0x1608017A
def tileWord (s : State) (t : Nat) : Word := fields [(8, 4, s.nTiles - 1), (4, 1, (t == 0).toNat), (0, 3, t)]

/-- Reads. -/
def cfgRead (s : State) (d : Desc) (acc : Acc) (t o : Nat) : State × Word :=
  if o = 0 then (s, partWord)
  else if o = 4 then (s, tileWord s t)
  else if 0x20 ≤ o && o < 0x30 then nvmRead s d acc o
  else if 0xA00 ≤ o && o < 0xB00 then wdRead s d acc (o - 0xA00)
  else if 0x1000 ≤ o && o < 0x1400 then (s, fnRegRead s (o - 0x1000))
  else if o = 0x3000 then (s, hpStatWord s acc)
  else if 0x3100 ≤ o && o < 0x3120 then (s, mirWord s ((o - 0x3100) / 4) 0)
  else if 0x3120 ≤ o && o < 0x3140 then (s, maskMbx s acc ((o - 0x3120) / 4) (mirWord s ((o - 0x3120) / 4) 1))
  else if o = 0x3140 then (s, maskEvt s acc (mirEvt s))
  else plainRead s d acc (ta t (0x500000 + o))

/-- Writes. -/
def cfgWrite (s : State) (d : Desc) (acc : Acc) (t o : Nat) (v : Word) : State × Done :=
  if 0x20 ≤ o && o < 0x30 then nvmWrite s d o v
  else if 0x800 ≤ o && o < 0x900 then (if bit v 31 then clearXr s t ((o - 0x800) / 16) else s, .ok)
  else if 0xA00 ≤ o && o < 0xB00 then wdWrite s d (o - 0xA00) v
  else if 0x1000 ≤ o && o < 0x1400 then fnRegWrite s acc (o - 0x1000) v
  else if o = 0x3000 then (hpStatWrite s acc v, .ok)
  else (plainWrite s d (ta t (0x500000 + o)) v, .ok)

end Sys2Proof.Machine
end

