-- ==== Sys2Proof/Machine/Bus.lean ====
section
/-! DEFINITION. The cluster's address map as one bus (01 R38 to R44; 00 R19 to R22): the checks of an access and its performance, for
every agent. -/
namespace Sys2Proof.Machine

/-! ## The ROM decode entries and the control-store view (06 R248, 08 R321, R322, R328 to R332) -/

/-- Class and privilege of an assigned ROM opcode. -/
def romClass (op : Nat) : Option (Nat × Nat) :=
  let cls : Option Nat :=
    if op ≤ 0x0F then some 0 else if 0x10 ≤ op && op ≤ 0x14 then some 1 else if op = 0x18 || op = 0x19 then some 2
    else if 0x20 ≤ op && op ≤ 0x2E then some 0 else if 0x40 ≤ op && op ≤ 0x46 then some 0 else if 0x50 ≤ op && op ≤ 0x53 then some 1
    else if 0x60 ≤ op && op ≤ 0x6C then some 3 else if op = 0x80 || op = 0x81 then some 4 else if op = 0x82 || op = 0x83 then some 5
    else if op = 0x84 || op = 0x85 then some 6 else if 0x90 ≤ op && op ≤ 0x95 then some 0 else if 0xA0 ≤ op && op ≤ 0xA8 then some 6
    else if 0xB0 ≤ op && op ≤ 0xB3 then some 6 else if 0xC0 ≤ op && op ≤ 0xC2 then some 0 else none
  cls.map fun c => (c, 2)

/-- The ROM decode entry of an opcode below 0xE0. -/
def romDec (op : Nat) : Word :=
  match romClass op with
  | some (c, p) => fields [(31, 1, 1), (29, 2, p), (13, 3, c), (0, 13, (Config.romEntry op).toNat)]
  | none => Config.romReserved op &&& 0x6000FFFF

/-- The lowest-numbered powered quad of a tile. -/
def firstQuad (s : State) (t : Nat) : Option Nat := (List.range 4).find? fun q => powered s t (domQ q)

/-- S and D of a parcel. -/
def rSD : Rt := { s := true, d := true }
/-- K; D of parcel 0. -/
def rKD : Rt := { k := true, d := true }

/-- Rights of the control-store view; `o` the offset from 0x60_0000. -/
def csvDesc (s : State) (t o : Nat) : Option Desc :=
  if o % 4 ≠ 0 then none
  else if o < 0x30000 then (if o % 0x20 < 20 then some { rd := rKD, dom := domQ ((firstQuad s t).getD 0) } else none)
  else if 0x40000 ≤ o && o < 0x80000 then
    let q := (o - 0x40000) / 0x10000
    let x := getUWord s (uwKey t q (o % 0x10000 / 0x20))
    if o % 0x20 ≤ 0x14 then some { own := x.tag.toNat, rd := if x.tag = 0 then rKD else rSD, dom := domQ q } else none
  else if 0x80000 ≤ o && o < 0x81000 then
    let q := (o - 0x80000) / 0x400
    let n := o % 0x400 / 4
    if n < 0xE0 then some { rd := rKD, dom := domQ q }
    else
      let x := getDec s (decKey t q (n - 0xE0))
      some (if bit x.w 31 then { own := fld x.w 25 4, rd := rSD, dom := domQ q } else { rd := rKD, dom := domQ q })
  else none

/-- Reads of the view. -/
def csvRead (s : State) (t o : Nat) : Word :=
  if o < 0x30000 then ((Config.romWord (o / 0x20)) >>> (8 * (o % 0x20))).setWidth 32
  else if o < 0x80000 then
    let x := getUWord s (uwKey t ((o - 0x40000) / 0x10000) (o % 0x10000 / 0x20))
    if o % 0x20 < 0x14 then (x.w >>> (8 * (o % 0x20))).setWidth 32
    else fields [(15, 1, x.fn.isSome.toNat), (8, 6, x.fn.getD 0), (0, 4, x.tag.toNat)]
  else
    let n := o % 0x400 / 4
    if n < 0xE0 then romDec n else (getDec s (decKey t ((o - 0x80000) / 0x400) (n - 0xE0))).w

/-! ## Storage errors that a read finds (14 R493) -/

/-- The block of code memory or of a writable store that a read at tile offset `off` touches, where its CRC fails. -/
def badStore (s : State) (t off : Nat) : Option Nat :=
  let b? : Option Nat :=
    if 0x400000 ≤ off && off < 0x500000 then some ((off - 0x400000) / 64)
    else if 0x640000 ≤ off && off < 0x680000 then some (wsBlock ((off - 0x640000) / 0x10000) (off % 0x10000 / 0x20 / 3))
    else if 0x680000 ≤ off && off < 0x681000 && 0xE0 ≤ off % 0x400 / 4 then
      some (wsBlock ((off - 0x680000) / 0x400) (683 + (off % 0x400 / 4 - 0xE0) / 16))
    else none
  b?.filter fun b => isBad s t (posOf b)

/-- A read at tile offset `off` asks the partner for a block that fails its CRC: the state, and the state whose data the read returns, the
mirror copy's; `none` without a good copy (R481, R482). -/
def storeFound (s : State) (t off : Nat) : State × Option State :=
  match badStore s t off with
  | none => (s, some s)
  | some b =>
    (askPartner s t b,
     if mirrorGood s t b && partnerRoute s t then some (writeBlock s t b (getMirror s (mirKey t b)).data) else none)

/-- The block of the context file that an access at offset `o` of the window touches, of a context without a slot, is checked (R502). -/
def winFound (s : State) (t o : Nat) : State :=
  let c := t * 256 + o / 256
  let i := if 0x30 ≤ o % 256 then (getCtx s c).vsel.toNat / 4 else 4
  if !(getCtx s c).resident && [0x00, 0x04, 0x0C, 0x30, 0x34, 0x38, 0x3C].contains (o % 256) && isBad s t (ctxPos (c % 256) + i) then
    ctxBlockLost (markGood s t (ctxPos (c % 256) + i)) t (c % 256 * 8 + i)
  else s

/-! ## Registers by offset (01 R40) -/

/-- The register at tile offset `off`; none where the map shows none. -/
def regDesc (s : State) (a : Acc) (t off : Nat) : Option Desc :=
  if off < 0x500000 then none
  else if off < 0x502000 || (0x502400 ≤ off && off < 0x510000) then cfgDesc s a t (off - 0x500000)
  else if off < 0x570000 then unitDesc s t off
  else if off < 0x580000 then lnkDesc (off - 0x570000)
  else if off < 0x590000 then fltDesc (off - 0x580000)
  else if off < 0x5A0000 then pwrDesc (off - 0x590000)
  else if off < 0x5B0000 then pmcDesc s t (off - 0x5A0000)
  else if off < 0x5C0000 then dbgDesc (off - 0x5B0000)
  else if off < 0x5D0000 then secDesc t (off - 0x5C0000)
  else if off < 0x5E0000 then winDesc s t (off - 0x5D0000)
  else if 0x600000 ≤ off && off < 0x700000 then csvDesc s t (off - 0x600000)
  else none

/-- Its read. -/
def regRead (s : State) (d : Desc) (a : Acc) (t off : Nat) : State × Word :=
  if off < 0x502000 || (0x502400 ≤ off && off < 0x510000) then cfgRead s d a t (off - 0x500000)
  else if off < 0x570000 then unitRead s d a t off
  else if off < 0x580000 then lnkRead s d a t (off - 0x570000)
  else if off < 0x590000 then fltRead s d a t (off - 0x580000)
  else if off < 0x5A0000 then (s, pwrRead s t (off - 0x590000))
  else if off < 0x5B0000 then pmcRead s d a t (off - 0x5A0000)
  else if off < 0x5C0000 then dbgRead s d a t (off - 0x5B0000)
  else if off < 0x5D0000 then secRead s d a t (off - 0x5C0000)
  else if off < 0x5E0000 then let s := winFound s t (off - 0x5D0000); (s, winRead s t (off - 0x5D0000))
  else (s, csvRead s t (off - 0x600000))

/-- Its write. -/
def regWrite (s : State) (d : Desc) (a : Acc) (t off : Nat) (v : Word) (flit : Bool) : State × Done :=
  if off < 0x502000 || (0x502400 ≤ off && off < 0x510000) then cfgWrite s d a t (off - 0x500000) v
  else if off < 0x570000 then unitWrite s d a t off v flit
  else if off < 0x580000 then lnkWrite s d t (off - 0x570000) v
  else if off < 0x590000 then fltWrite s d a t (off - 0x580000) v
  else if off < 0x5A0000 then pwrWrite s d t (off - 0x590000) v
  else if off < 0x5B0000 then pmcWrite s d a t (off - 0x5A0000) v
  else if off < 0x5C0000 then dbgWrite s d t (off - 0x5B0000) v
  else if off < 0x5D0000 then secWrite s a (off - 0x5C0000) v
  else if off < 0x5E0000 then winWrite (winFound s t (off - 0x5D0000)) t (off - 0x5D0000) v
  else (s, .refused)

/-! ## The checks (06 R229; 09 R336, R343) -/

/-- A context at privilege 2 touches a guarded task-state block that is not its own in a handler (09 R343). -/
def guardHit (s : State) (a : Acc) (addr n : Nat) : Bool :=
  a.kind == 0 && a.priv == 2 && s.ctxs.any fun e =>
    e.1 / 256 == addr / 0x1000000 && (fnOfCtx s e.1).isSome && decide (e.2.tsbp ≠ 0) &&
    decide (e.2.tsbp.toNat < addr + n) && decide (addr < e.2.tsbp.toNat + 128) && !(e.1 == a.id && e.2.exl)

/-- The check of an access of `n` bytes: 0 where it may be performed, else the reason of R336. -/
def checkAcc (s : State) (a : Acc) (addr n : Nat) (wr : Bool) : Nat :=
  let t := addr / 0x1000000
  let off := addr % 0x1000000
  if 0x8000000 ≤ addr || s.nTiles ≤ t then 3
  else if off < 0x500000 then
    if !([1, 2, 4, 8].contains n) || addr % n ≠ 0 then 4
    else if !powered s t domBUF then 5
    else if off < 0x400000 then
      let g := granTag s t (off / 256)
      if !allows s a t g.1 { s := true, w := true, d := true, h := g.2 } wr then 2
      else if guardHit s a addr n then 10 else 0
    else if wr then 11
    else if allows s a t (getCodeTag s (t * 16384 + (off - 0x400000) / 64)).tag.toNat rSWHD false then 0 else 2
  else match regDesc s a t (off - off % 4) with
    | none => 3
    | some d =>
      if n ≠ 4 || addr % 4 ≠ 0 then 4
      else if !powered s t domBUF || !powered s t d.dom then 5
      else if !allows s a t d.own (if wr then d.wr else d.rd) wr then 2
      else if wr && (d.unit == some none || (d.staged && !mayStage s d t off)) then 2
      else 0

/-- A refused access is counted on the tile it addresses, or on the issuer's where there is none (04 R147); nothing counts while KP_TEST holds
every tile in reset (R135). -/
def denyAt (s : State) (a : Acc) (addr : Nat) : State :=
  if s.kpTest then s
  else countDeny s (if addr / 0x1000000 < s.nTiles then addr / 0x1000000 else homeOf a) a.parcel

/-- Tile `t` counts a performance event of an access (04 R159): a context's goes to that context's parcel, any other to `own`, the parcel of
the unit or granule. -/
def countAcc (s : State) (a : Acc) (t code own : Nat) : State :=
  if a.kind = 0 then countEvent s t { code, ctx := if a.id / 256 = t then some (a.id % 256) else none, parcel := a.parcel, priv := some a.priv }
  else countTile s t code own

/-- Code for a read of a lost block (14 R500). -/
def lostDet : Nat := 0xFF

/-- Code for a read of code memory or of a writable store that finds no good copy (14 R493). -/
def storeDet : Nat := 0xFE

/-- A read of `n` bytes as seen at the target: the state, 0 or the reason, the datum. -/
def busRead (s : State) (a : Acc) (addr n : Nat) : State × Nat × Nat :=
  let t := addr / 0x1000000
  let off := addr % 0x1000000
  let det := checkAcc s a addr n false
  if det ≠ 0 then (denyAt s a addr, det, 0)
  else if off < 0x400000 then
    let g := tagReady s addr
    if !g.2 then (denyAt g.1 a addr, 2, 0)
    else
      let s := countAcc (touchMem g.1 addr n) a t 0x40 (granTag s t (off / 256)).1
      if anyLost s addr n then (s, lostDet, 0) else (s, 0, memRead s addr n)
  else match storeFound s t off with
  | (s, none) => (s, storeDet, 0)
  | (s, some good) =>
    if off < 0x500000 then (s, 0, codeRead good addr n)
    else match regDesc s a t off with
      | none => (s, 3, 0)
      | some d =>
        let r := if (badStore s t off).isSome then (s, (regRead good d a t off).2) else regRead s d a t off
        (countAcc r.1 a t 0x42 d.own, 0, r.2.toNat)

/-- MAC_TXPOST_LO or MAC_TXPOST_HI. -/
def isPost (off : Nat) : Bool := decide (0x530000 ≤ off ∧ off < 0x534000) && (off % 0x800 == 0x300 || off % 0x800 == 0x304)

/-- A released post to a port of an unpowered PORT domain, by an agent that holds the right: it is discarded and counted nowhere (11 R417). -/
def postGone (s : State) (a : Acc) (addr : Nat) : Bool :=
  let t := addr / 0x1000000
  let off := addr % 0x1000000
  isPost off && powered s t domBUF && !powered s t domPORT &&
  (match regDesc s a t off with | some d => allows s a t d.own d.wr true && d.unit != some none | none => false)

/-- Code for an error report that is no refusal: a full queue or mailbox (11 R413, 15 R535). -/
def fullDet : Nat := 0x100

/-- A write of `n` bytes at the target. -/
def busWrite (s : State) (a : Acc) (addr n v : Nat) (flit : Bool := false) : State × Nat :=
  let t := addr / 0x1000000
  let off := addr % 0x1000000
  let det := checkAcc s a addr n true
  if det ≠ 0 then (denyAt s a addr, det)
  else if off < 0x400000 then
    let g := tagReady s addr
    if !g.2 then (denyAt g.1 a addr, 2)
    else (countAcc (memWrite (touchMem g.1 addr n) addr n v) a t 0x41 (granTag s t (off / 256)).1, 0)
  else match regDesc s a t off with
    | none => (s, 3)
    | some d =>
      match regWrite (countAcc s a t 0x42 d.own) d a t off (BitVec.ofNat 32 v) flit with
      | (s, .ok) => (s, 0)
      | (s, .full) => (s, fullDet)
      | (s', .refused) => (denyAt s' a addr, 2)

/-- A write of up to eight bytes of one doubleword, of whatever number: a merged store of a block repeat (07 R268), or an ordinary one. -/
def bytesWrite (s : State) (a : Acc) (addr n v : Nat) (flit : Bool := false) : State × Nat :=
  if ([1, 2, 4, 8].contains n && addr % n == 0) || 0x400000 ≤ addr % 0x1000000 then busWrite s a addr n v flit
  else
    match busWrite s a addr 1 v with
    | (s, 0) => (memWrite s addr n v, 0)
    | (s, d) => (s, d)

end Sys2Proof.Machine
end

