-- ==== Sys2Proof/Machine/Exc.lean ====
section
/-! DEFINITION. What a context's instructions do to memory and to their context: loads, posted and staged stores (05 R198 to R212),
exception entry and return (09 R346 to R354), completion, and the boundary that follows (R341). -/
namespace Sys2Proof.Machine

/-- The stamp of context `c` (04 R130). -/
def ctxAcc (s : State) (c : Nat) : Acc := stamp s (.ctx c) 0

/-! ## Stores in flight (05 R200, R203 to R206) -/

/-- A store performed with the context's stamp. -/
def doStore (s : State) (c : Nat) (x : Store) : State := (bytesWrite s (ctxAcc s c) x.addr.toNat x.size x.data.toNat).1

/-- The `k` oldest posted stores of context `c` are performed, in order. -/
def drainStores (s : State) (c k : Nat) : State :=
  let l := (getCtx s c).stores
  (l.take k).foldl (fun s x => doStore s c x) (modCtx s c fun x => { x with stores := l.drop k })

/-- Every posted store of the context is performed: FENCE (R205). -/
def fence (s : State) (c : Nat) : State := drainStores s c (getCtx s c).stores.length

/-- Two byte ranges overlap. -/
def overlaps (a n b m : Nat) : Bool := decide (a < b + m) && decide (b < a + n)

/-- Stores in flight up to the newest that overlaps the bytes are performed before a load of them (R204). -/
def drainFor (s : State) (c a n : Nat) : State :=
  let l := (getCtx s c).stores
  drainStores s c (l.length - (l.reverse.takeWhile fun x => !overlaps x.addr.toNat x.size a n).length)

/-! ## Transactions in flight (05 R200) -/

/-- Transactions that context `x` has in flight: its read and its posted stores. -/
def Ctx.flying (x : Ctx) : Nat :=
  x.stores.length + (match x.wait with | .remote _ _ _ | .answered _ _ _ _ | .entry _ | .resend _ => 1 | _ => 0)

/-- Transactions of the contexts of tile `t` in flight, hard-class or normal. -/
def flying (s : State) (t : Nat) (hard : Bool) : Nat :=
  s.ctxs.foldl (fun n e => if e.1 / 256 == t && isHard s e.1 == hard then n + e.2.flying else n) 0

/-- Context `c` finds `k` transactions of its tile free: of 256, a normal-class context leaves 32 to the hard class (R49, R200). -/
def txnFree (s : State) (c k : Nat) : Bool :=
  let h := flying s (c / 256) true
  let n := flying s (c / 256) false
  if isHard s c then decide (n + h + k ≤ 256) else decide (n + (h - 32) + k ≤ 224)

/-- Contexts of tile `t` that wait for a transaction try again: one has come free. -/
def wakeTxn (s : State) (t : Nat) : State :=
  (s.ctxs.map Prod.fst).foldl (fun s c =>
    if c / 256 == t && decide ((getCtx s c).wait = .transaction) && txnFree s c 1 then
      modCtx s c fun x => { x with wait := .none, st := if x.st = .stalled then .ready else x.st }
    else s) s

/-- When a context last ran, for the waiting order of R186. -/
def stampRan (s : State) (c : Nat) : State :=
  let n := (getTile s (c / 256)).tick + 1
  modTile (modCtx s c fun x => { x with ran := n }) (c / 256) fun x => { x with tick := n }

/-- The context stalls inside the instruction at its program counter. -/
def stallIn (s : State) (c : Nat) (w : Wait) : State :=
  reschedOf (stampRan (modCtx s c fun x => { x with st := .stalled, wait := w, mid := true }) c) c

/-- The engine waits inside an instruction for the parcel's next slot (04 R171). -/
def slotWait (s : State) (c : Nat) : State := modCtx s c fun x => { x with mid := true }

/-! ## Exceptions (09) -/

/-- The bytes of the context's task-state block can be read (14 R500). -/
def blockGood (s : State) (c off n : Nat) : Bool := !anyLost s ((getCtx s c).tsbp.toNat + off) n

/-- An access of entry or RFE to `n` bytes of the task-state block from `off`: the storage checks, and whether it is performed. It is refused
without BUF, or by a tag group whose CRC fails (04 R151); a storage error that is not masked fails it too. -/
def blockAccess (s : State) (c off n : Nat) : State × Bool :=
  let a := (getCtx s c).tsbp.toNat + off
  let g := tagReady s a
  let bad := (span (blockOf a) ((a % 64 + n + 63) / 64)).any fun b => isBad g.1 (c / 256) b
  (touchMem g.1 a n, g.2 && powered s (c / 256) domBUF && !bad)

/-- V0 to V(k-1) saved into the block, 16 bytes each. -/
def saveRegs (s : State) (c k : Nat) : State :=
  let x := getCtx s c
  (List.range k).foldl (fun s n => memWrite s (x.tsbp.toNat + 0x40 + 16 * n) 16 (vget 0 x.v n).toNat) s

/-- HPRIV and NSAVE of an HCTL word (R342). -/
def hpriv (hctl : Nat) : Nat := min (hctl % 4) 2
def nsave (hctl : Nat) : Nat := min (hctl / 16 % 8) 4

/-- Exception entry begins (R346): EXENT, and the read of HVEC and HCTL, for which the context stalls; ACCESS_COMPLETE finishes the entry.
`vec` is the event's vector, for an event. The block's stores follow the context's posted stores. -/
def entry (s : State) (c cause detail : Nat) (addr : Word) (epc : BitVec 20) (vec : Option (BitVec 20)) : State :=
  let s := fence s c
  let x := getCtx s c
  if x.exl || !tsbOk s c then unhandled s c 1 cause (epc.setWidth 32) (BitVec.ofNat 32 detail) addr
  else
    let r := blockAccess (modCtx s c fun y =>
      { y with exent := true, entering := some { cause, detail, addr, epc, vec }, micro := none, rep := {}, got := [] }) c 0x18 8
    if !r.2 || !blockGood r.1 c 0x18 8 then lockEngine r.1 c
    else stallIn r.1 c (.entry (slotDue r.1 c x.tsbp.toNat))

/-- The entry in progress of context `c` is finished (R346): the header and the registers stored, the status word, the program counter. A
store that fails locks the engine (R358). -/
def entryStores (s : State) (c : Nat) (e : Entering) : State :=
  let x := getCtx s c
  let b := x.tsbp.toNat
  let hctl := memRead s (b + 0x1C) 4
  let r1 := blockAccess s c 0 24
  let r2 := if nsave hctl = 0 then (r1.1, true) else blockAccess r1.1 c 0x40 (16 * nsave hctl)
  let s := r2.1
  if !r1.2 || !r2.2 then lockEngine s c
  else
    let s := memWrite s b 8 (e.epc.toNat + x.sw.toNat * 2 ^ 32)
    let s := memWrite s (b + 8) 8 (e.cause + e.detail * 2 ^ 32)
    let s := memWrite s (b + 16) 8 (e.addr.toNat + (now32 s (c / 256)).toNat * 2 ^ 32)
    let s := saveRegs s c (nsave hctl)
    let hvec := BitVec.ofNat 20 (memRead s (b + 0x18) 4) &&& 0xFFFFC
    let pr := match e.vec with | some _ => 2 | none => max (hpriv hctl) (ceiling s (ctxParcel s c)).toNat
    let s := modCtx s c fun y =>
      { y with priv := BitVec.ofNat 2 pr, exl := true, ie := false, rpt := false, pc := (e.vec.getD hvec) &&& 0xFFFFC,
               mid := false, wait := .none, st := if y.st = .stalled then .ready else y.st, exent := false, entering := none,
               ecause := BitVec.ofNat 32 e.cause, edetail := BitVec.ofNat 32 e.detail, eaddr := e.addr, epc := e.epc.setWidth 32 }
    countCtx s c 0x0B

/-- An exception of the instruction: a single step ends with the entry (R351). -/
def stepEnds (s : State) (c : Nat) : State :=
  if (getCtx s c).stepping then modCtx s c fun x => { x with haltReq := if x.st = .halted || !x.act then x.haltReq else .step, stepping := false, stepEv := false }
  else s

/-- Raises an exception that the instruction at the program counter takes, `epc` its saved program counter. -/
def raiseAt (s : State) (c cause detail : Nat) (addr : Word) (epc : BitVec 20) : State :=
  let s := if cause = 1 then countCtx s c 0x11 else s
  let s := stampRan (stepEnds s c) c
  reschedOf (entry s c cause detail addr epc none) c

/-- Raises an exception at the instruction itself. -/
def raise_ (s : State) (c cause detail : Nat) (addr : Word := 0) : State := raiseAt s c cause detail addr (getCtx s c).pc

/-! ## Events inside an activation (10 R375, R376; 09 R347) -/

/-- The event that may be delivered inside the activation of context `c` now: the winner, in a higher group than the source that started the
activation; none in an activation that a start-of-frame started (10 R374 to R376). -/
def insideWinner (s : State) (c : Nat) : Option Nat :=
  let x := getCtx s c
  if !x.act || !x.ie || x.exl || x.asrc = 0x3FE || !tsbOk s c || !isRunning s (fnOfCtx s c) then none
  else (ctxWinner s c).filter fun n => decide (groupOf s c x.asrc.toNat < groupOf s c n)

/-- Delivers it: exception entry with the event's vector, the saved program counter that of the context. -/
def deliverInside (s : State) (c n : Nat) : State :=
  let vec := (rg s (ta (c / 256) (0x511004 + n * 16))).setWidth 20
  let s := deliver s (c / 256) n (some (c % 256))
  let s := entry s c 8 n 0 (getCtx s c).pc (some vec)
  countCtx (modCtx s c fun x => { x with isrc := BitVec.ofNat 10 n }) c 0x0A

/-! ## Completion of an instruction -/

/-- The instruction of context `c` is complete: its answers, its counts, a single step's end, and the engine's next choice. -/
def finish (s : State) (c : Nat) : State :=
  let (n, s) := freshOf s
  let s := countCtx (countCtx s c 0x02) c 0x01 (Config.stepsTaken n)
  let s := stampRan (modCtx s c fun x => { x with got := [], micro := none, rep := {}, mid := false }) c
  reschedOf (stepEnds s c) c

/-- The block's words are read: the return, its EPC and ESW as read at the start (R352). -/
def rfeReturn (s : State) (c : Nat) (e : Nat) : State :=
  let x := getCtx s c
  let b := x.tsbp.toNat
  let hctl := memRead s (b + 0x1C) 4
  let r := blockAccess s c 0x18 8
  let r := if nsave hctl = 0 then r else blockAccess r.1 c 0x40 (16 * nsave hctl)
  let s := r.1
  if !blockGood s c 0x18 8 || (nsave hctl ≠ 0 && !blockGood s c 0x40 (16 * nsave hctl)) then reschedOf (abandon (stepEnds s c) c) c
  else
    let esw := e / 2 ^ 32
    let s := if x.ecause = 8 then completeSrc (modCtx s c fun y => { y with isrc := 0x3FF }) (c / 256) x.isrc.toNat else s
    let v := (List.range (nsave hctl)).foldl (fun v n => vset v n (BitVec.ofNat 128 (memRead s (b + 0x40 + 16 * n) 16))) x.v
    finish (modCtx s c fun y =>
      { y with v, priv := BitVec.ofNat 2 (min (esw / 1024 % 4) 2), ie := esw.testBit 8, rpt := esw.testBit 0, exl := false,
               pc := BitVec.ofNat 20 (e % 2 ^ 32) &&& 0xFFFFC }) c

/-- Return from an exception (R352 to R354), SW.EXL being 1: the read of EPC and ESW, for which the context stalls; then the forgery test;
then HCTL and the SAVE area, of which only what NSAVE names is read (R342). -/
def doRfe (s : State) (c : Nat) : State :=
  let s := fence s c
  let x := getCtx s c
  if !tsbOk s c then reschedOf (unhandled (stepEnds s c) c 1 0 (x.pc.setWidth 32) 0 0) c
  else
    match x.got.find? fun g => g.1 == x.tsbp && g.2.1 == 8 with
    | some (_, _, some e) =>
      let pr := e.toNat / 2 ^ 42 % 4
      if pr < (ceiling s (ctxParcel s c)).toNat then
        reschedOf (unhandled (stepEnds s c) c 2 0 (x.pc.setWidth 32) (BitVec.ofNat 32 (e.toNat / 2 ^ 32)) x.tsbp) c
      else rfeReturn s c e.toNat
    | _ =>
      if !slotTime s c 64 then slotWait s c
      else
        let r := blockAccess s c 0 8
        if !blockGood r.1 c 0 8 then reschedOf (abandon (stepEnds r.1 c) c) c
        else stallIn r.1 c (.answered x.tsbp 8 (some (BitVec.ofNat 64 (memRead r.1 x.tsbp.toNat 8))) (slotDue r.1 c x.tsbp.toNat))

/-- The program counter moves past the instruction, which is complete. -/
def next4 (s : State) (c : Nat) : State := finish (modCtx s c fun x => { x with pc := x.pc + 4 }) c

/-- Register `n` written whole, and the instruction complete. -/
def setV (s : State) (c n : Nat) (w : Vec) : State := modCtx s c fun x => { x with v := vset x.v n w }

/-- Register `n` of context `c`. -/
def getV (s : State) (c n : Nat) : Vec := vget 0 (getCtx s c).v n

/-! ## Loads (05 R198 to R201, R204; 13 R474) -/

/-- What an access did: a datum; an exception with its detail; a lost block; a stall already taken. -/
inductive Got where
  | val (v : Nat)
  | exc (det : Nat)
  | lost
  | stalled
  deriving DecidableEq, Repr

/-- Why a read of another tile was refused: the reason the target's own check gives, else rights. -/
def remoteDet (s : State) (c a n : Nat) : Got :=
  let d := checkAcc s (ctxAcc s c) a n false
  if d ≠ 0 then .exc d else if a % 0x1000000 < 0x400000 && anyLost s a n then .lost else .exc 2

/-- What the issuing tile checks before a read of another tile goes out (05 R201, 04 R172, R39 to R41). -/
def remoteCheck (s : State) (c a n : Nat) (wr : Bool) : Nat :=
  let off := a % 0x1000000
  if 0x8000000 ≤ a || s.nTiles ≤ a / 0x1000000 then 3
  else if 0x500000 ≤ off && (regDesc s (ctxAcc s c) (a / 0x1000000) (off - off % 4)).isNone then 3
  else if a % n ≠ 0 || (0x500000 ≤ off && n ≠ 4) then 4
  else if wr then (if 0x400000 ≤ off && off < 0x500000 then 11 else 0)
  else if isHard s c || quiet s (ctxParcel s c) then 8 else 0

/-- A read of the own tile by context `c`: performed at its issue, it completes at ACCESS_COMPLETE (05 R190, R198); refused, or of a lost
block, it ends at once. It waits for a transaction, on a slot-mode engine for time in its slot (04 R171), and where it finds a block of code
memory or of a writable store with a bad CRC for the re-send, as a fetch does (14 R493). -/
def ownRead (s : State) (c : Nat) (acc : Acc) (a n : Nat) : State × Got :=
  if checkAcc s acc a n false = 0 && !slotTime s c (slotNs a) then (slotWait s c, .stalled)
  else if checkAcc s acc a n false = 0 && !txnFree s c 1 then (stallIn s c .transaction, .stalled)
  else match (if checkAcc s acc a n false = 0 then badStore s (c / 256) (a % 0x1000000) else none) with
  | some b => (stallIn (askPartner s (c / 256) b) c (.resend b), .stalled)
  | none =>
    match busRead (drainFor s c a n) acc a n with
    | (s, 0, v) => (stallIn s c (.answered (BitVec.ofNat 32 a) n (some (BitVec.ofNat 64 v)) (slotDue s c a)), .stalled)
    | (s, d, _) => (s, if d = lostDet then .lost else .exc d)

/-- A read of `n` bytes by context `c`, with stamp `acc`, for the instruction in progress. It is issued once and completes later (R190); its
answer is found on the next issue of the instruction. -/
def ctxReadAs (s : State) (c : Nat) (acc : Acc) (a n : Nat) : State × Got :=
  match (getCtx s c).got.find? fun g => g.1.toNat == a && g.2.1 == n with
  | some g => (match g.2.2 with | some v => (s, .val v.toNat) | none => (s, remoteDet s c a n))
  | none =>
    if a / 0x1000000 = c / 256 then ownRead s c acc a n
    else
      match remoteCheck s c a n false with
      | 0 =>
        if !txnFree s c 1 then (stallIn s c .transaction, .stalled)
        else
          let (s, tag) := nextTag s (c / 256)
          let (s, ok) := sendFlit s (c / 256) (readFlitOf acc (a / 0x1000000) (BitVec.ofNat 32 a) n tag)
          if ok then (stallIn s c (.remote (BitVec.ofNat 32 a) n tag), .stalled) else (denyAt s acc a, .exc 5)
      | d => (denyAt s acc (c / 256 * 0x1000000), .exc d)

/-- A read with the context's own stamp. -/
def ctxRead (s : State) (c a n : Nat) : State × Got := ctxReadAs s c (ctxAcc s c) a n

/-! ## Stores (05 R200, R202, R209, R210) -/

/-- A store to this offset is staged wherever it lies (R202): doorbell, transmit-post and mailbox send registers. -/
def stagedReg (off : Nat) : Bool :=
  off == 0x510000 || (decide (0x530000 ≤ off ∧ off < 0x534000) && (off % 0x800 == 0x300 || off % 0x800 == 0x304)) ||
  (decide (0x520000 ≤ off ∧ off < 0x521000) && (off % 0x80 == 0x10 || off % 0x80 == 0x14))

/-- A store by context `c` to this address is staged. -/
def isStaged (c a : Nat) : Bool := a / 0x1000000 ≠ c / 256 || stagedReg (a % 0x1000000)

/-- The check of a staged store when it is staged (R210): of its own tile's register whole, of another tile the address alone. -/
def stageCheck (s : State) (c a n v : Nat) : Nat :=
  if a / 0x1000000 ≠ c / 256 then remoteCheck s c a n true
  else
    let d := checkAcc s (ctxAcc s c) a n true
    if d = 0 && a % 0x1000000 = 0x510000 && !doorbellOk s (ctxAcc s c) (c / 256) (v % 1024) then 2 else d

/-- What became of a store. -/
inductive Put where
  | done
  /-- an exception: class and detail -/
  | exc (cause det : Nat)
  | stalled
  deriving DecidableEq, Repr

/-- The context is denied, by detail, and the refusal counted (04 R147). -/
def denied (s : State) (c d : Nat) : State × Put := (countDeny s (c / 256) (ctxAcc s c).parcel, .exc 1 d)

/-- A store of `n` bytes by context `c`: staged, or posted after its check. A ninth posted store stalls the context, and one that
finds no transaction free. -/
def ctxStore (s : State) (c a n v : Nat) : State × Put :=
  let st : Store := { addr := BitVec.ofNat 32 a, size := n, data := BitVec.ofNat 64 v }
  if isStaged c a then
    match stageCheck s c a n v with
    | 0 => if (getCtx s c).tb.length = 32 then (s, .exc 5 0) else (modCtx s c fun x => { x with tb := x.tb ++ [st] }, .done)
    | d => denied s c d
  else
    match busWrite s (ctxAcc s c) a n v with
    | (_, 0) =>
      if !slotTime s c (slotNs a) then (slotWait s c, .stalled)
      else if 8 ≤ (getCtx s c).stores.length then (stallIn (countCtx s c 0x06) c .storeQueue, .stalled)
      else if !txnFree s c 1 then (stallIn s c .transaction, .stalled)
      else (modCtx s c fun x => { x with stores := x.stores ++ [{ st with due := slotDue s c a }] }, .done)
    | (s, d) => (s, .exc 1 d)

/-- A posted store of context `c` completes (R200), on a slot-mode engine at its fixed time (04 R172); a full queue has room again. -/
def storeDone (s : State) (c : Nat) : State :=
  match (getCtx s c).stores with
  | [] => s
  | x :: _ =>
    if !dueNow s (c / 256) x.due then s
    else
      let s := wakeTxn (drainStores s c 1) (c / 256)
      let s := if (getCtx s c).wait = .storeQueue then
          modCtx s c fun x => { x with wait := .none, st := if x.st = .stalled then .ready else x.st }
        else s
      reschedOf s c

/-! ## Commit and release (05 R208, R211, R212; 07 R278 to R281) -/

/-- What a context does when its release is complete: restart, end of the activation, stop in a drain, or go on. -/
def releaseOver (s : State) (c : Nat) : State :=
  let x := getCtx s c
  let s := modCtx s c fun x => { x with wait := .none, restart := false }
  if !x.act || x.st = .locked then s
  else if x.ending then reschedOf (endActivation s c) c
  else if decide (((fnOfCtx s c).map (fnState s)).getD .unloaded = .draining) && !x.restart then
    reschedOf (modCtx s c fun x => { x with stopped := true, st := if x.st = .halted then .halted else .stalled }) c
  else reschedOf (modCtx s c fun x => { x with st := if x.st = .stalled then .ready else x.st }) c

/-- COMMIT, and WAIT where `ending` (R278): fence, snapshot, release. -/
def doCommit (s : State) (c : Nat) (ending : Bool) : State :=
  let s := countCtx (fence s c) c 0x0C
  let s := modCtx s c fun x =>
    let y := { x with pc := x.pc + 4, snap := x.snapAt (x.pc + 4), rel := x.rel ++ x.tb, tb := [], ending := ending }
    if y.rel.isEmpty then y else { y with st := .stalled, wait := .release }
  let s := finish s c
  if (getCtx s c).rel.isEmpty then releaseOver s c else s

/-- The flit that carries a committed entry to another tile: a doorbell, a mailbox word or a write (13 R461). Its stamp is the context's at
the release: that its privilege field is not the one of the staging is the model's choice, notes/assumptions/37.md. -/
def entryFlit (s : State) (c : Nat) (x : Store) : Flit :=
  let a := ctxAcc s c
  let d := x.addr.toNat / 0x1000000
  if x.addr.toNat % 0x1000000 = 0x510000 then
    { stampFlit (mkFlit 4 0 d) a with len := 0, addr := BitVec.ofNat 32 (x.data.toNat % 1024) }
  else writeFlitOf a d x.addr x.size x.data.toNat

/-- The mailbox and whether it ends, of a send register's offset. -/
def sendReg (off : Nat) : Option (Nat × Bool) :=
  if 0x520000 ≤ off ∧ off < 0x521000 then
    match off % 0x80 with | 0x10 => some ((off - 0x520000) / 0x80, false) | 0x14 => some ((off - 0x520000) / 0x80, true) | _ => none
  else none

/-- Does a committed entry have to wait (R211): a full transmit queue, a full mailbox, a link whose replay buffer has no room? The COMMIT of a
quiet parcel's context does not wait for links (04 R172). -/
def entryWaits (s : State) (c : Nat) (x : Store) : Bool :=
  let t := x.addr.toNat / 0x1000000
  let off := x.addr.toNat % 0x1000000
  let link := t ≠ c / 256 && !quiet s (ctxParcel s c) && (match routeOf s (c / 256) t with | some (k, _) => !linkRoom (getLink s (c / 256 * 4 + k)) 0 | none => false)
  match sendReg off with
  | some (m, last) => mbxWaits s (ctxAcc s c) (t * 32 + m) last || link
  | none =>
    link || t == c / 256 && decide (0x530000 ≤ off ∧ off < 0x534000) && off % 0x800 == 0x304 &&
      checkAcc s (ctxAcc s c) x.addr.toNat 4 true == 0 && postFull s (t * 8 + (off - 0x530000) / 0x800) (x.data.setWidth 32)

/-- The oldest committed entry of context `c` is released, if its destination accepts (R210, R211). -/
def releaseOne (s : State) (c : Nat) : State :=
  match (getCtx s c).rel with
  | [] => s
  | x :: rest =>
    if entryWaits s c x then s
    else
      let s := if x.bad then copyMasked s (c / 256) 0x01 (engOf s c) (ctxParcel s c) c else s
      let s := countCtx (modCtx s c fun y => { y with rel := rest }) c 0x0D
      let t := x.addr.toNat / 0x1000000
      let a := ctxAcc s c
      let s := match sendReg (x.addr.toNat % 0x1000000) with
        | some (m, last) =>
          if t = c / 256 && checkAcc s a x.addr.toNat 4 true ≠ 0 then denyAt s a x.addr.toNat
          else (mbxSend s a (t * 32 + m) (x.data.setWidth 32) last).1
        | none =>
          if t = c / 256 then (if postGone s a x.addr.toNat then s else doStore s c x)
          else
            let (s, ok) := sendFlit s (c / 256) (entryFlit s c x)
            if ok then s else countDeny s (c / 256) a.parcel
      if rest.isEmpty && (getCtx s c).rel.isEmpty then releaseOver s c else s

/-! ## The instruction's start -/

/-- Context `c` runs an instruction now: it has an activation, its engine's choice is it, and no halt waits before the instruction
(06 R186; 18 R611). -/
def mayRun (s : State) (c : Nat) : Bool :=
  let x := getCtx s c
  x.act && !x.stopped && eligible s c && (pick s (c / 256) (engOf s c) == some c) && (x.haltReq = .none || x.mid) &&
  !(x.stepping && x.stepEv && !x.mid && (insideWinner s c).isSome)

end Sys2Proof.Machine
end

