-- ==== Sys2Proof/Machine/Operands.lean ====
section
/-! DEFINITION. Operand fields, elements, immediates and field checks of long operations (06 R224 to R232), and the frame of one
instruction: its fetch check, execution comparators and field check (06 R246). -/
namespace Sys2Proof.Machine

/-! ## Fields (R224) -/

/-- rd, bits 22:19. -/
def rdOf (f : BitVec 23) : Nat := fld f 19 4
/-- ra, bits 18:15. -/
def raOf (f : BitVec 23) : Nat := fld f 15 4
/-- rb, bits 14:11. -/
def rbOf (f : BitVec 23) : Nat := fld f 11 4
/-- E, bits 10:8. -/
def eOf (f : BitVec 23) : Nat := fld f 8 3
/-- FN, bits 7:0. -/
def fnOf (f : BitVec 23) : Nat := fld f 0 8
/-- SEL, bits 10:0. -/
def selOf (f : BitVec 23) : Nat := fld f 0 11
/-- IMM15, sign-extended to 128 bits (R228). -/
def imm15 (f : BitVec 23) : Vec := (f.setWidth 15).signExtend 128
/-- IMM19. -/
def imm19 (f : BitVec 23) : BitVec 19 := f.setWidth 19
/-- DISP15, sign-extended to an address (R230). -/
def disp15 (f : BitVec 23) : Word := (f.setWidth 15).signExtend 32
/-- 4 x DISP19 of class 4: bits 22:19 then bits 14:0 (R231). -/
def dispBr (f : BitVec 23) : BitVec 20 := (((f >>> 19).setWidth 4 ++ f.setWidth 15 : BitVec 19).signExtend 20) <<< 2
/-- 4 x DISP19 of class 5. -/
def dispJmp (f : BitVec 23) : BitVec 20 := ((imm19 f).signExtend 20) <<< 2

/-! ## Elements (R226 to R228) -/

/-- Element width of an E encoding. -/
def widthOf (e : Nat) : Nat := 128 >>> e
/-- Element `i` of a register at width `w`. -/
def elem (x : Vec) (w i : Nat) : BitVec w := x.extractLsb' (i * w) w
/-- The register whose element `i` at width `w` is `g i`. -/
def ofElems (w : Nat) (g : Nat → BitVec w) : Vec :=
  (List.range (128 / w)).foldl (fun acc i => acc ||| ((g i).setWidth 128) <<< (i * w)) 0
/-- Element by element at the width of E, from two registers. -/
def map2 (e : Nat) (g : (w : Nat) → BitVec w → BitVec w → BitVec w) (a b : Vec) : Vec :=
  ofElems (widthOf e) fun i => g (widthOf e) (elem a (widthOf e) i) (elem b (widthOf e) i)
/-- Element by element from one register. -/
def map1 (e : Nat) (g : (w : Nat) → BitVec w → BitVec w) (a : Vec) : Vec :=
  ofElems (widthOf e) fun i => g (widthOf e) (elem a (widthOf e) i)

/-! ## Field checks (R224 to R226) -/

/-- E is not reserved. -/
def eOk (f : BitVec 23) : Bool := decide (eOf f ≤ 4)
/-- Class 0 with rd, ra, rb and E; FN 0. -/
def chkE (f : BitVec 23) : Bool := eOk f && decide (fnOf f = 0)
/-- Class 0 with rd, ra, rb; E and FN 0. -/
def chkWhole (f : BitVec 23) : Bool := decide (fld f 0 11 = 0)
/-- Class 0 with rd and ra; the rest 0. -/
def chkWhole1 (f : BitVec 23) : Bool := decide (fld f 0 15 = 0)
/-- Class 0 with rd, ra and E; rb and FN 0. -/
def chkE1 (f : BitVec 23) : Bool := chkE f && decide (rbOf f = 0)
/-- Shift by immediate: rb 0, FN bit 7 0 (07 R258). -/
def chkShift (f : BitVec 23) : Bool := eOk f && decide (rbOf f = 0) && decide (fnOf f < 128)
/-- Element selector: rb 0, k below the element count (07 R258). -/
def chkSel (f : BitVec 23) : Bool := eOk f && decide (rbOf f = 0) && decide (fnOf f < 16) && decide (fnOf f < 128 / widthOf (eOf f))
/-- Class 6 with nothing used: rd, ra, rb and SEL 0. -/
def chkNone (f : BitVec 23) : Bool := decide (f = 0)
/-- Class 6: rb 0. -/
def chkSys (f : BitVec 23) : Bool := decide (rbOf f = 0)

/-! ## The frame of an instruction (R246) -/

/-- Block `b` of tile `t` is asked for again from the partner, once (13 R481). -/
def askResend (s : State) (t b : Nat) : State := askPartner s t b

/-- The code block that holds the program counter of context `c`. -/
def fetchBlock (s : State) (c : Nat) : Nat := (getCtx s c).pc.toNat / 64

/-- Check 1: the block's tag is the context's parcel (04 R153, R223). -/
def fetchOk (s : State) (c : Nat) : Bool :=
  (getCodeTag s (c / 256 * 16384 + fetchBlock s c)).tag.toNat == ctxParcel s c

/-- The execution comparators take the fetch (18 R618 to R620): a halt before the instruction, or a breakpoint. `true` where the
instruction is not executed. -/
def watchExec (s : State) (c : Nat) : State × Bool :=
  let r := bwTake s c { exec := true, addr := (getCtx s c).pc.toNat, size := 4 }
  match bwAct r.1 c r.2 with
  | (s, some n) => (raise_ s c 7 (0x20000 + n), true)
  | (s, none) => (s, decide ((getCtx s c).haltReq ≠ .none))

/-- A data watch takes an access (18 R618, R620): the breakpoint to raise at the next boundary. -/
def watchData (s : State) (c : Nat) (rd wr : Bool) (a n v : Nat) : State × Option Nat :=
  let r := bwTake s c { read := rd, write := wr, addr := a, size := n, data := BitVec.ofNat 32 v }
  bwAct r.1 c r.2

/-- A breakpoint of a data watch, at the boundary after the instruction. -/
def breakAfter (s : State) (c : Nat) (n : Option Nat) : State :=
  match n with
  | some n => raise_ s c 7 (0x20000 + n)
  | none => s

/-- The instruction at the program counter: performed only where it may run; `rep` where an execution comparator must not match again,
`ok` the field check, `body` its own effect. On a slot-mode engine its fetch waits for time in the slot (04 R171). -/
def runInsn (s : State) (c : Nat) (rep ok : Bool) (body : State → State) : State :=
  if !mayRun s c then s
  else if !(getCtx s c).mid && !slotTime s c 32 then s
  else if !fetchOk s c then raise_ s c 1 1
  else if isBad s (c / 256) (posOf (fetchBlock s c)) then
    stallIn (askResend s (c / 256) (fetchBlock s c)) c (.resend (fetchBlock s c))
  else
    match (if rep || (getCtx s c).mid then (s, false) else watchExec s c) with
    | (s, true) => s
    | (s, false) => if ok then body s else raise_ s c 2 2

/-- An instruction that writes `w` into rd and nothing else. -/
def runReg (s : State) (c : Nat) (f : BitVec 23) (ok : Bool) (w : State → Vec) : State :=
  runInsn s c false ok fun s => next4 (setV s c (rdOf f) (w s)) c

end Sys2Proof.Machine
end

