-- ==== Sys2Proof/Machine/Agents.lean ====
section
/-! DEFINITION. Register accesses by an agent, as the commands that name one make them (00 R14 to R22): the stamp, the access at the
register, what the agent gets back. -/
namespace Sys2Proof.Machine

/-- A stamp of tile hardware, for looking at a register's description only. -/
def viewAcc : Acc := { kind := 3, id := 0, parcel := 0, priv := 3 }

/-- The parcel that owns the target of an access (15 R522): of a granule, a code block, a register; of a doorbell, a lock release or a seal,
what the value names. -/
def ownerAt (s : State) (addr : Nat) (v : Word) : Nat :=
  let t := addr / 0x1000000
  let off := addr % 0x1000000
  if off < 0x400000 then (granTag s t (off / 256)).1
  else if off < 0x500000 then (getCodeTag s (t * 16384 + (off - 0x400000) / 64)).tag.toNat
  else if off = 0x510000 then srcOwner s t (fld v 0 10)
  else if off = 0x521100 || off = 0x521104 then lockOwner s (t * 64 + fld v 0 6)
  else if off = 0x58000C then (granTag s t (fld v 6 16 / 4)).1
  else ((regDesc s viewAcc t (off - off % 4)).map Desc.own).getD 0

/-- The stamp of agent `ag` on an access (04 R130; 15 R522; 18 R604). -/
def agentAcc (s : State) (ag : Agent) (addr : Nat) (v : Word) : Acc := stamp s ag (ownerAt s addr v)

/-- A host or debugger access reaches tile `t`: tile 0, or a tile with a route (13 R484). -/
def reaches (s : State) (ag : Agent) (t : Nat) : Bool :=
  match ag with
  | .ctx _ => true
  | _ => t == 0 || (routeOf s 0 t).isSome

/-- What the agent gets back; a debugger's refusal sets its flag (00 R22). -/
def answer (s : State) (ag : Agent) (v : Word) (refused : Bool) : State :=
  let s := { s with result := { data := v.setWidth 64, refused } }
  match ag with
  | .dbg _ => if refused then { s with dbg := { s.dbg with refused := true } } else s
  | _ => s

/-- A write of a register by agent `ag` takes effect at the register, or is refused (00 R14 to R22). -/
def agentWrite (s : State) (ag : Agent) (addr : Nat) (v : Word) : State :=
  let a := agentAcc s ag addr v
  if !reaches s ag (addr / 0x1000000) then answer (denyAt s a 0) ag 0 true
  else
    let r := busWrite s a addr 4 v.toNat
    answer r.1 ag 0 (decide (r.2 ≠ 0))

/-- A read of a register by agent `ag`; refused, it reads 0. -/
def agentRead (s : State) (ag : Agent) (addr : Nat) : State :=
  let a := agentAcc s ag addr 0
  if !reaches s ag (addr / 0x1000000) then answer (denyAt s a 0) ag 0 true
  else
    let r := busRead s a addr 4
    answer r.1 ag (BitVec.ofNat 32 r.2.2) (decide (r.2.1 ≠ 0))

end Sys2Proof.Machine
end

