-- ==== Sys2Proof/Machine/HostPort.lean ====
section
/-! DEFINITION. The host port (15 R517 to R527): requests, responses, accesses carried to other tiles, messages of the host and of the
debugger. -/
namespace Sys2Proof.Machine

/-! ## Messages of an agent at tile 0 (R534, R535) -/

/-- The messages that a write of a send register closes, and the message that stays open. -/
def closing (s : State) (a : Acc) (m : Nat) (v : Word) (last : Bool) : List (Nat × List Word) × Option (Nat × List Word) :=
  let (first, words) := match openMsg s a with
    | none => ([], [])
    | some (j, ws) => if j = m then ([], ws) else ([(j, ws)], [])
  let ws := words ++ [v]
  if last || decide (16 ≤ ws.length) then (first ++ [(m, ws)], none) else (first, some (m, ws))

/-- What became of the messages of one write: answers to come from other tiles; a refusal; a full mailbox. -/
structure Sent where
  left : Nat := 0
  refused : Bool := false
  full : Bool := false
  deriving DecidableEq, Repr

/-- One closed message goes out: to a mailbox of tile 0 at once, to another tile as flits under `tag`. -/
def sendClosed (a : Acc) (tag : BitVec 16) (r : State × Sent) (x : Nat × List Word) : State × Sent :=
  if x.1 / 32 = 0 then
    match closeMsg r.1 a x.1 x.2 with
    | (s, .ok) => (s, r.2)
    | (s, .full) => (s, { r.2 with full := true })
    | (s, .refused) => (s, { r.2 with refused := true })
  else
    let (s, ok) := (mbxFlits a x.1 tag x.2).foldl (fun (q : State × Bool) fl =>
      let (s', ok) := sendFlit q.1 0 fl; (s', q.2 && ok)) (r.1, true)
    if ok then (s, { r.2 with left := r.2.left + 1 }) else (countDeny s 0 a.parcel, { r.2 with refused := true })

/-- A word written to a send register by the host or the debugger (R534). -/
def sendWord (s : State) (a : Acc) (m : Nat) (v : Word) (last : Bool) (tag : BitVec 16) : State × Sent :=
  let (l, left) := closing s a m v last
  let (s, r) := l.foldl (sendClosed a tag) (s, {})
  (setOpenMsg s a left, r)

/-! ## Requests -/

/-- The datum of a write in the byte lanes of its address (R519). -/
def laneIn (r : HostReq) : Nat := (r.data.toNat >>> (8 * (r.addr.toNat % 8))) % 2 ^ (8 * r.size)

/-- Read data in their byte lanes. -/
def laneOut (r : HostReq) (v : Nat) : DWord := BitVec.ofNat 64 ((v % 2 ^ (8 * r.size)) <<< (8 * (r.addr.toNat % 8)))

/-- The tile that a request names. -/
def HostReq.tile (r : HostReq) : Nat := r.addr.toNat / 0x1000000

/-- Puts a response on the channel: an error response carries 0. -/
def putResp (s : State) (r : HostReq) (v : Nat) (err : Bool) : State :=
  { s with hp := { s.hp with resp := s.hp.resp ++ [{ req := r, rd := if err || r.wr then 0 else laneOut r v, err, at_ := now s 0 }] } }

/-- Raises a response (R521), behind those of earlier requests to the same tile. -/
def respond (s : State) (r : HostReq) (v : Nat) (err : Bool) : State :=
  if s.hp.out.any fun x => x.req.tile == r.tile then
    { s with hp := { s.hp with out := s.hp.out ++ [{ req := r, tag := 0, done := some (v, err) }] } }
  else putResp s r v err

/-- Answered requests whose earlier ones to the tile have had their response get theirs, in order. -/
def hostFlush : Nat → State → State
  | 0, s => s
  | n + 1, s =>
    let ready := s.hp.out.findIdx? fun x => x.done.isSome && (s.hp.out.find? fun y => y.req.tile == x.req.tile) == some x
    match ready.bind fun i => s.hp.out[i]?.map fun x => (i, x) with
    | some (i, x) =>
      let d := x.done.getD (0, false)
      hostFlush n (putResp { s with hp := { s.hp with out := s.hp.out.eraseIdx i } } x.req d.1 d.2)
    | none => s

/-- The stamp of a host request (R522). -/
def hostAcc (s : State) (r : HostReq) : Acc :=
  agentAcc s (.host r.rid) r.addr.toNat (if r.wr then BitVec.ofNat 32 (laneIn r) else 0)

/-- A request for tile 0, or for no tile, is performed or refused at once. -/
def hostLocal (s : State) (r : HostReq) : State :=
  let a := hostAcc s r
  if r.wr then
    let x := busWrite s a r.addr.toNat r.size (laneIn r)
    respond x.1 r 0 (decide (x.2 ≠ 0))
  else
    let x := busRead s a r.addr.toNat r.size
    respond x.1 r x.2.2 (decide (x.2.1 ≠ 0))

/-- A request is carried to another tile as a flit, or refused where no route reaches it (13 R484). -/
def hostCarry (s : State) (r : HostReq) : State :=
  let a := hostAcc s r
  let t := r.addr.toNat / 0x1000000
  let (s, tag) := nextTag s 0
  let fl := if r.wr then { writeFlitOf a t r.addr r.size (laneIn r) with tag } else readFlitOf a t r.addr r.size tag
  match sendFlit s 0 fl with
  | (s, true) => { s with hp := { s.hp with out := s.hp.out ++ [{ req := r, tag }] } }
  | (s, false) => respond (countDeny s 0 a.parcel) r 0 true

/-- A write of a send register: the response waits for the messages that it closes (R535). -/
def hostMessage (s : State) (r : HostReq) (m : Nat) (last : Bool) : State :=
  let a := hostAcc s r
  if r.size ≠ 4 || (m / 32 = 0 && checkAcc s a r.addr.toNat 4 true ≠ 0) then respond (denyAt s a r.addr.toNat) r 0 true
  else
    let (s, tag) := nextTag s 0
    let (s, x) := sendWord s a m (BitVec.ofNat 32 (laneIn r)) last tag
    let bad := x.refused || x.full
    if x.left = 0 then respond s r 0 bad
    else { s with hp := { s.hp with out := s.hp.out ++ List.replicate x.left { req := r, tag, bad } } }

/-- An acknowledged request goes to its tile. -/
def hostIssue (s : State) (r : HostReq) : State :=
  let t := r.addr.toNat / 0x1000000
  let there := decide (r.addr.toNat < 0x8000000) && decide (t < s.nTiles)
  match (if r.wr && there then sendReg (r.addr.toNat % 0x1000000) else none) with
  | some (m, last) => hostMessage s r (t * 32 + m) last
  | none => if t = 0 || !there then hostLocal s r else hostCarry s r

/-- The request cannot be acknowledged yet: its tag is outstanding in its set, or 32 responses wait (R520). -/
def hostBlocked (s : State) (r : HostReq) : Bool :=
  decide (32 ≤ s.hp.resp.length) || (s.hp.out.any fun x => x.req.wr == r.wr && x.req.tag == r.tag) ||
  s.hp.resp.any fun x => x.req.wr == r.wr && x.req.tag == r.tag

/-- A request arrives at the port: acknowledged, or held behind others. The port acknowledges none while KP_TEST holds the cluster in
reset (R527, 04 R135); before a header is accepted no requester is granted to a parcel (R523). -/
def hostRequest (s : State) (r : HostReq) : State :=
  if s.kpTest then s
  else if !s.hp.held.isEmpty || hostBlocked s r then { s with hp := { s.hp with held := s.hp.held ++ [r] } }
  else hostIssue s r

/-- Held requests are acknowledged in order, as far as they can be. -/
def hostRetry : Nat → State → State
  | 0, s => s
  | n + 1, s =>
    match s.hp.held with
    | r :: rest => if hostBlocked s r then s else hostRetry n (hostIssue { s with hp := { s.hp with held := rest } } r)
    | [] => s

/-- The oldest response is taken (R518, R520). -/
def hostTaken (s : State) : State :=
  if s.hp.resp.isEmpty then s
  else hostRetry s.hp.held.length { s with hp := { s.hp with resp := s.hp.resp.drop 1 } }

/-- The oldest response has waited 4 µs (R525). -/
def hostSlow (s : State) : State :=
  match s.hp.resp with
  | x :: _ =>
    if atOrAfter (now s 0) (x.at_ + 4000) then modHp s { viewAcc with kind := 1, id := x.req.rid } fun h => { h with slow := true } else s
  | [] => s

/-- An answer from another tile to a carried request: its datum, a refusal, a full mailbox or a full transmit queue. -/
def hostAnswer (s : State) (tag : BitVec 16) (v : Nat) (refused full : Bool) : State :=
  let mine (x : HostOut) : Bool := x.tag == tag && x.done.isNone
  match s.hp.out.findIdx? mine, s.hp.out.find? mine with
  | some i, some x =>
    let s := if full && !isPost (x.req.addr.toNat % 0x1000000) then modHp s { viewAcc with kind := 1, id := x.req.rid } fun h => { h with fullref := true } else s
    let bad := refused || full || x.bad
    let rest := s.hp.out.eraseIdx i
    if rest.any mine then
      { s with hp := { s.hp with out := rest.map fun y => if mine y then { y with bad } else y } }
    else hostFlush (s.hp.out.length) { s with hp := { s.hp with out := s.hp.out.set i { x with done := some (v, bad) } } }
  | _, _ => s

/-- HOST_READ (15 R519 to R522). -/
def execHostRead (rid : Nat) (tag : BitVec 5) (addr : Word) (size : Nat) (s : State) : Host.Outcome State Fault Refusal :=
  .next (hostRequest s { rid, tag, wr := false, addr, size, data := 0 })

/-- HOST_WRITE (15 R519 to R522). -/
def execHostWrite (rid : Nat) (tag : BitVec 5) (addr : Word) (size : Nat) (data : BitVec 64) (s : State) : Host.Outcome State Fault Refusal :=
  .next (hostRequest s { rid, tag, wr := true, addr, size, data })

/-- HOST_RESPONSE_TAKEN (15 R518, R520). -/
def execHostResponseTaken (s : State) : Host.Outcome State Fault Refusal := .next (hostTaken s)

/-- HOST_RESPONSE_SLOW (15 R525). -/
def execHostResponseSlow (s : State) : Host.Outcome State Fault Refusal := .next (hostSlow s)

end Sys2Proof.Machine
end

