-- ==== Sys2Proof/Machine/Scan.lean ====
section
/-! DEFINITION. The scan port and its debug accesses (18 R600 to R609). -/
namespace Sys2Proof.Machine

/-- A change of the scan port. -/
def modDbg (s : State) (g : Dbg → Dbg) : State := { s with dbg := g s.dbg }

/-! ## The instruction register (R601, R602) -/

/-- The data registers that instructions select. -/
inductive DataReg where
  | bypass | idcode | dacc | dstat | test
  deriving DecidableEq, Repr

/-- The data register that the instruction in force selects (R601): a manufacturing-test instruction is accepted only while KP_TEST is
asserted, whose reset has zeroed every store (04 R135); every code of no instruction selects bypass (PRESUMED: notes/assumptions/38.md). -/
def dataReg (s : State) : DataReg :=
  let k := s.dbg.ir.toNat
  if k = 1 then .idcode else if k = 8 then .dacc else if k = 9 then .dstat else if 16 ≤ k ∧ k ≤ 30 && s.kpTest then .test else .bypass

/-- IDCODE (R602): CFG_PART.STEP, the part 0x1608, the identity code 0x2A7, and 1. -/
def idcode : Word := fields [(28, 4, fld partWord 8 4), (12, 16, 0x1608), (1, 11, 0x2A7), (0, 1, 1)]

/-- Selects an instruction: with IDCODE its register holds the identification. -/
def selectIr (s : State) (code : BitVec 5) : State :=
  let s := modDbg s fun x => { x with ir := code }
  modDbg s fun x => { x with idr := if dataReg s = .idcode then idcode else 0 }

/-! ## Debug accesses -/

/-- The access in flight is answered: a datum, or `none` for a refusal; `full` for a full mailbox (15 R535). -/
def dbgAnswered (s : State) (v : Option Word) (full : Bool) : State :=
  modDbg s fun x =>
    let bad := match x.ans, v with | some none, _ => true | _, none => true | _, _ => false
    { x with ans := some (if bad then none else v), full := x.full || full, tag := none, left := 0 }

/-- An answer from another tile under a tag. -/
def dbgAnswer (s : State) (tag : BitVec 16) (v : Nat) (refused full : Bool) : State :=
  let post := match s.dbg.acc with | some q => isPost (q.addr.toNat % 0x1000000) | none => false
  let s := if s.dbg.tag = some tag && full && !post then modHp s { viewAcc with kind := 2 } fun h => { h with fullref := true } else s
  if s.dbg.tag ≠ some tag then s
  else if s.dbg.left ≤ 1 then dbgAnswered s (if refused then none else some (BitVec.ofNat 32 v)) full
  else modDbg s fun x => { x with left := x.left - 1, full := x.full || full, ans := if refused then some none else x.ans }

/-- A message word of the debugger for a mailbox (15 R534, R535). -/
def dbgMessage (s : State) (a : Acc) (m : Nat) (last : Bool) (v : Word) : State :=
  if m / 32 = 0 && checkAcc s a (ta 0 (0x520010 + m % 32 * 0x80 + if last then 4 else 0)) 4 true ≠ 0 then
    dbgAnswered (denyAt s a 0) none false
  else
    let (s, tag) := nextTag s 0
    let (s, x) := sendWord s a m v last tag
    if x.left = 0 then dbgAnswered s (if x.refused then none else some 0) x.full
    else modDbg s fun d => { d with tag := some tag, left := x.left, full := x.full, ans := if x.refused then some none else none }

/-- A debug access goes out: performed on tile 0, or carried to another tile as a flit (R604, 13 R484). -/
def dbgIssue (s : State) (q : DbgAcc) : State :=
  let a := agentAcc s (.dbg q.consume) q.addr.toNat (if q.wr then q.data else 0)
  let addr := q.addr.toNat
  let t := addr / 0x1000000
  let there := decide (addr < 0x8000000) && decide (t < s.nTiles)
  match (if q.wr && there && addr % 4 = 0 then sendReg (addr % 0x1000000) else none) with
  | some (m, last) => dbgMessage s a (t * 32 + m) last q.data
  | none =>
    if t = 0 || !there then
      if q.wr then
        match busWrite s a addr 4 q.data.toNat with
        | (s, 0) => dbgAnswered s (some 0) false
        | (s, d) => if d = fullDet then dbgAnswered s (some 0) true else dbgAnswered s none false
      else
        match busRead s a addr 4 with
        | (s, 0, v) => dbgAnswered s (some (BitVec.ofNat 32 v)) false
        | (s, _, _) => dbgAnswered s none false
    else
      let (s, tag) := nextTag s 0
      let fl := if q.wr then { writeFlitOf a t q.addr 4 q.data.toNat with tag } else readFlitOf a t q.addr 4 tag
      match sendFlit s 0 fl with
      | (s, true) => modDbg s fun d => { d with tag := some tag, left := 1 }
      | (s, false) => dbgAnswered (countDeny s 0 a.parcel) none false

/-- Update-DR of DACC starts an access, or sets OVERRUN while one is in flight (R603, R605). -/
def dbgStart (s : State) (q : DbgAcc) : State :=
  if dataReg s ≠ .dacc then s
  else if s.dbg.acc.isSome then modDbg s fun x => { x with overrun := true }
  else dbgIssue (modDbg s fun x => { x with acc := some q, ans := none, full := false, left := 0, tag := none }) q

/-- The access in flight ends: its result, unless it was discarded (R603, R604, R609). A post to a full queue sets the refusal flag (11 R413),
a discarded message does not (15 R535). -/
def dbgDone (s : State) : State :=
  match s.dbg.acc, s.dbg.ans, s.dbg.tag with
  | some q, some r, none =>
    modDbg s fun x =>
      let y := { x with acc := none, ans := none, full := false, discard := false }
      if x.discard then y
      else { y with data := if q.wr || x.full then 0 else r.getD 0, addr := q.addr, status := if r.isNone || x.full then 2 else 0,
                    refused := x.refused || r.isNone || (x.full && isPost (q.addr.toNat % 0x1000000)) }
  | _, _, _ => s

/-- The value that Capture-DR of DACC loads (R603). -/
def daccValue (s : State) : BitVec 68 :=
  let x := s.dbg
  let st : BitVec 2 := if x.acc.isSome && !x.discard then 1 else x.status
  BitVec.ofNat 68 (x.data.toNat * 2 ^ 36 + x.addr.toNat * 2 ^ 4 + st.toNat)

/-- Test-Logic-Reset (R600, R601, R603, R608, R609; 04 R166). -/
def tapReset (s : State) : State :=
  endUnlock (modDbg (selectIr s 1) fun x => { x with overrun := false, refused := false, status := 3, discard := x.discard || x.acc.isSome })

/-- TAP_RESET (18 R609). -/
def execTapReset (s : State) : Host.Outcome State Fault Refusal := .next (tapReset s)

/-- IR_UPDATE (18 R601). -/
def execIrUpdate (code : BitVec 5) (s : State) : Host.Outcome State Fault Refusal := .next (selectIr s code)

/-- DACC_CAPTURE (18 R603), with DACC selected. -/
def execDaccCapture (s : State) : Host.Outcome State Fault Refusal :=
  .next (if dataReg s = .dacc then modDbg s fun x => { x with dacc := daccValue s } else s)

/-- DEBUG_READ (18 R603 to R607). -/
def execDebugRead (addr : Word) (consume : Bool) (s : State) : Host.Outcome State Fault Refusal :=
  .next (dbgStart s { addr, wr := false, consume, data := 0 })

/-- DEBUG_WRITE (18 R603 to R607). -/
def execDebugWrite (addr : Word) (v : Word) (s : State) : Host.Outcome State Fault Refusal :=
  .next (dbgStart s { addr, wr := true, consume := false, data := v })

/-- DEBUG_ACCESS_COMPLETE (18 R606). -/
def execDebugAccessComplete (s : State) : Host.Outcome State Fault Refusal := .next (dbgDone s)

/-- DSTAT_UPDATE (18 R608), with DSTAT selected. -/
def execDstatUpdate (v : Word) (s : State) : Host.Outcome State Fault Refusal :=
  .next (if dataReg s = .dstat then modDbg s fun x => { x with overrun := x.overrun && !bit v 1, refused := x.refused && !bit v 0 } else s)

end Sys2Proof.Machine
end

