-- ==== Sys2Proof/Machine/Arrival.lean ====
section
/-! DEFINITION. Flits as they arrive at a tile over a link (13 R460 to R486): link sequence, forwarding, end-to-end order, and what each
type does. -/
namespace Sys2Proof.Machine

/-! ## Link sequence (R464) -/

/-- A tile accepts other flits than IDLE, NAK, SYNC, link-state notices and its own key once it holds its key; a key for a tile behind it goes
on after that (04 R137). -/
def keyed (s : State) (t : Nat) (fl : Flit) : Bool :=
  t == 0 || (getTile s t).key.isSome || !sequenced fl || fl.typ == 0xA ||
  (fl.typ == 0xB && (ctlKind fl == ctlLinks || (ctlKind fl == ctlKey && fl.dst.toNat == t)))

/-- A flit is discarded at the link: a NAK flit for the expected LSEQ, unless one has gone out for it (R464). -/
def sendNak (s : State) (t k : Nat) : State :=
  modLink s (t * 4 + k) fun l => if l.naked then l else { l with naked := true, sent := flitBytes (bareFlit s t k 0xC) }

/-- An idle link sends an IDLE flit, which carries the acknowledgement (R459). -/
def sendIdle (s : State) (t k : Nat) : State :=
  modLink s (t * 4 + k) fun l => if l.queue.isEmpty then { l with sent := flitBytes (bareFlit s t k 0) } else l

/-- A sequenced flit is accepted: the next LSEQ is expected, and its LACK taken (R463, R464). -/
def acceptFlit (s : State) (t k : Nat) (fl : Flit) : State :=
  let s := modLink s (t * 4 + k) fun l => { l with expect := l.expect + 1, naked := false, accepted := l.accepted + 1 }
  sendIdle (if fl.ackv then takeLack s t k fl.lack else s) t k

/-! ## Forwarding (R468) -/

/-- A flit that cannot go on is discarded: LNK_RSQ.HOPDROP and a record of class 0x05. -/
def dropHop (s : State) (t : Nat) : State :=
  writeFault (modRg s (ta t 0x570008) fun w => bumpFld w 16 8 1) t { outcome := 2, cls := 0x05, unit := 0x0F, ack := true }

/-- A flit for another tile goes on, with FWD + 1 (R462, R468); a SYNC flit is never forwarded (R475). -/
def forward (s : State) (t : Nat) (fl : Flit) : State :=
  match (if fl.fwd.toNat < 2 && fl.typ != 0xA then routeOf s t fl.dst.toNat else none) with
  | some (k, _) => putOnLink s t k { fl with fwd := fl.fwd + 1 }
  | none => dropHop s t

/-- Every flit that waits on a link out of service goes out, where a route has come to exist (R470). -/
def rerouteAll (s : State) (t : Nat) : State :=
  (List.range 4).foldl (fun s k => if linkLive s t k then s else reroute s t k) s

/-! ## Requests of other tiles (R473, R474, R484) -/

/-- The response to a flit of a host or debugger, or to a read (R461, R474): AUX bit 0 a refusal, bit 1 a full mailbox. -/
def respondFlit (s : State) (t : Nat) (fl : Flit) (n v : Nat) (refused full : Bool) : State :=
  (sendFlit s t { mkFlit 3 1 fl.src.toNat with
    len := BitVec.ofNat 8 n, tag := fl.tag, aux := fields [(0, 1, refused.toNat), (1, 1, full.toNat)],
    payload := BitVec.ofNat 256 (if refused then 0 else v) }).1

/-- The access of a flit is to this tile. -/
def ownAddr (t : Nat) (fl : Flit) : Bool := fl.addr.toNat / 0x1000000 == t

/-- The enabled bytes of a WRITE, in rising order, with a contiguous run of up to eight as one access (R460); only a context's merged store
may be of another number or alignment than 01 R41 gives. -/
def writeBy (s : State) (t : Nat) (fl : Flit) : State × Nat :=
  let a := accOf fl
  let n := fl.len.toNat
  let addr := fl.addr.toNat
  if !ownAddr t fl then (countDeny s t a.parcel, 3)
  else if 1 ≤ n && n ≤ 8 && fl.aux.toNat == 2 ^ n - 1 then
    let v := fl.payload.toNat % 2 ^ (8 * n)
    if a.kind ≠ 0 then busWrite s a addr n v true
    else if postGone s a addr then (s, 0) else bytesWrite s a addr n v true
  else (List.range 32).foldl (fun (r : State × Nat) i =>
    if bit fl.aux i then
      let x := busWrite r.1 a (addr + i) 1 (fld fl.payload (8 * i) 8) true
      (x.1, if r.2 = 0 then x.2 else r.2)
    else r) (s, 0)

/-- WRITE (R473); a host or debugger is answered. -/
def takeWrite (s : State) (t : Nat) (fl : Flit) : State :=
  let r := writeBy s t fl
  if fl.kind = 1 || fl.kind = 2 then respondFlit r.1 t fl 0 0 (decide (r.2 ≠ 0) && decide (r.2 ≠ fullDet)) (decide (r.2 = fullDet)) else r.1

/-- READ (R474). -/
def takeRead (s : State) (t : Nat) (fl : Flit) : State :=
  let n := fl.len.toNat
  if !ownAddr t fl then respondFlit (countDeny s t fl.parcel.toNat) t fl n 0 true false
  else
    let r := busRead s (accOf fl) fl.addr.toNat n
    respondFlit r.1 t fl n r.2.2 (decide (r.2.1 ≠ 0)) false

/-- A context of tile `t` that waits for an answer under the tag has it (05 R190). -/
def answerCtx (t : Nat) (fl : Flit) (s : State) (c : Nat) : State :=
  match (getCtx s c).wait with
  | .remote a n tag =>
    if c / 256 = t && tag = fl.tag then
      modCtx s c fun x => { x with wait := .answered a n (if bit fl.aux 0 then none else some (BitVec.ofNat 64 (fl.payload.toNat % 2 ^ (8 * n)))) none }
    else s
  | _ => s

/-- RDATA (R474): the waiting context, or on tile 0 the host request or debug access of its tag. -/
def takeRdata (s : State) (t : Nat) (fl : Flit) : State :=
  let s := (s.ctxs.map Prod.fst).foldl (answerCtx t fl) s
  if t ≠ 0 then s
  else
    let s := hostAnswer s fl.tag fl.payload.toNat (bit fl.aux 0) (bit fl.aux 1)
    dbgAnswer s fl.tag fl.payload.toNat (bit fl.aux 0) (bit fl.aux 1)

/-- DOORBELL (R473, 10 R387). -/
def takeDoorbell (s : State) (t : Nat) (fl : Flit) : State :=
  let n := fld fl.addr 0 10
  if powered s t domBUF && doorbellOk s (accOf fl) t n then ringDoorbell s t (BitVec.ofNat 32 n) else countDeny s t fl.parcel.toNat

/-- The words of a MAILBOX flit. -/
def mailWords (fl : Flit) : List Word := (List.range (min 8 (fl.len.toNat / 4))).map fun i => BitVec.ofNat 32 (fld fl.payload (32 * i) 32)

/-- A whole message has arrived (15 R535, R536): delivered, discarded by a full mailbox, or refused; a host or debugger is answered. -/
def takeMessage (s : State) (t : Nat) (fl : Flit) (words : List Word) : State :=
  let m := t * 32 + fld fl.addr 0 5
  let a := accOf fl
  let ask := fl.kind = 1 || fl.kind = 2
  if !powered s t domBUF || (fnOfMbx s m).isNone || !allows s a t (ownerOf s (fnOfMbx s m)) rSWHD true then
    let s := countDeny s t a.parcel
    if ask then respondFlit s t fl 0 0 true false else s
  else if mbxRoom s m then
    let s := mbxDeliver s m words a.ident
    if ask then respondFlit s t fl 0 0 false false else s
  else if ask then respondFlit s t fl 0 0 false true
  else modRg s (ta t (0x520008 + m % 32 * 0x80)) fun w => bumpFld w 24 8 1

/-- MAILBOX (R461): flits of one message are chained by MORE. -/
def takeMail (s : State) (t : Nat) (fl : Flit) : State :=
  let src := fl.src.toNat
  let x := getTile s t
  let words := (((x.inbox.find? fun e => e.1 == src).map Prod.snd).getD [] ++ mailWords fl).take 16
  let rest := x.inbox.filter fun e => e.1 != src
  if fl.more then setTile s t { x with inbox := rest ++ [(src, words)] }
  else takeMessage (setTile s t { x with inbox := rest }) t fl words

/-- KICK (09 R361): for tile 0, which holds the watchdogs. -/
def takeKick (s : State) (t : Nat) (fl : Flit) : State := if t = 0 then wdKick s fl.parcel.toNat else s

/-! ## Mirroring (R480 to R482) -/

/-- MIRREQ (R481 to R483): the mirror copy, or for AUX bit 2 the primary block, in two MIRDAT flits; AUX bit 1 where there is no good one. -/
def takeMirreq (s : State) (t : Nat) (fl : Flit) : State :=
  let b := auxBlock fl
  let d := fl.src.toNat
  let own := bit fl.aux 2
  if d ≠ partner t || mirBlocks ≤ b then s
  else if (if own then primaryGood s t b else mirrorGood s d b) then
    let v := if own then (primaryBlock s t b).toNat else (getMirror s (mirKey d b)).data.toNat
    let s := (List.range 2).foldl (fun s h =>
      (sendFlit s t { mkFlit 9 2 d with len := 32, aux := BitVec.ofNat 32 (b * 256 + own.toNat * 4 + h), payload := BitVec.ofNat 256 (v / 2 ^ (256 * h)) }).1) s
    if own then s else modRg s (ta t 0x57000C) fun w => bumpFld w 12 12 1
  else
    let s := (sendFlit s t { mkFlit 9 2 d with aux := BitVec.ofNat 32 (b * 256 + own.toNat * 4 + 2) }).1
    if own then s else modRg s (ta t 0x57000C) fun w => bumpFld w 24 8 1

/-- A re-send has no good copy (R482): a record, and an engine fault of every context that waits for the block (14 R493). -/
def resendLost (s : State) (t b : Nat) : State :=
  let s := modTile s t fun x => { x with resend := x.resend.filter fun r => r.1 != b }
  let s := writeFault s t (lostRec s t b)
  (s.ctxs.map Prod.fst).foldl (fun s c =>
    if c / 256 = t && (getCtx s c).wait = .resend b then reschedOf (engineFault s c) c else s) s

/-- A request to the partner ends. -/
def askOver (s : State) (t key : Nat) : State := modTile s t fun x => { x with resend := x.resend.filter fun r => r.1 != key }

/-- A request finds no good copy (R482, R483; 19 R643): a re-send is lost, the reload of a quad fails, a mirror block stays bad. -/
def askLost (s : State) (t key : Nat) : State :=
  if key < 32768 then resendLost s t key
  else
    let s := askOver s t key
    if key < 65536 then modTile s t fun x => { x with wakeBad := setBit x.wakeBad ((key - 32768 - 16384) / 685) true } else s

/-- A re-sent block arrives whole: written, and the masked error reported (R481). -/
def resendTaken (s : State) (t b : Nat) (v : BitVec 512) : State :=
  let s := markGood (writeBlock s t b v) t (posOf b)
  let s := askOver s t b
  modRg (writeFault s t (maskedRec s t b)) (ta t 0x57000C) fun w => bumpFld w 0 12 1

/-- A block of a quad that wakes arrives whole (08 R293, 19 R642). -/
def reloadTaken (s : State) (t b : Nat) (v : BitVec 512) : State := markGood (askOver (writeBlock s t b v) t (b + 32768)) t (posOf b)

/-- A primary block arrives whole: the mirror copy is repaired (R483). -/
def repairTaken (s : State) (t b : Nat) (v : BitVec 512) : State :=
  let s := modMirror (askOver s t (b + 65536)) (mirKey (partner t) b) fun x => { x with data := v }
  writeFault (markGood s t (mirPos b)) t
    { outcome := 0, cls := 0x0B, parcel := blockParcel s (partner t) b, unit := 0x07, addr := blockAddr (partner t) b }

/-- MIRDAT (R481 to R483): for a block that this tile has asked for. -/
def takeMirdat (s : State) (t : Nat) (fl : Flit) : State :=
  let b := auxBlock fl
  let asked (key : Nat) : Bool := (getTile s t).resend.any fun r => r.1 == key
  let key := if bit fl.aux 2 then b + 65536 else if asked b then b else b + 32768
  if fl.src.toNat ≠ partner t || !asked key then s
  else if bit fl.aux 1 then askLost s t key
  else match takeHalf s t (if bit fl.aux 2 then 0x1000000 + b else b * 2 + 1) fl with
    | (s, some v) => if key < 32768 then resendTaken s t b v else if key < 65536 then reloadTaken s t b v else repairTaken s t b v
    | (s, none) => s

/-! ## Datum synchronisation (R475 to R477) -/

/-- A tile's Datum in units of 2^-8 ns, as SYNC flits carry it (notes/assumptions/6.md). -/
def syncTime (s : State) (t : Nat) : Nat := (now s t).toNat * 256 + fld (getTile s t).frac 32 8

/-- The bound of R477, ±2 ns. -/
def syncNear (th : Int) : Bool := decide (-512 ≤ th ∧ th ≤ 512)

/-- TMR_DSTAT.SYNC falls (R477). -/
def syncFall (s : State) (t : Nat) : State :=
  let s := modRg s (ta t 0x55F014) fun w => setBit w 7 false
  let s := modRg s (ta t 0x570004) fun w => setBit w 7 true
  let s := modTile s t fun x => { x with sync := { x.sync with thetas := [] } }
  writeFault (raiseEdge s t 0x3CC) t { outcome := 5, cls := 0x0D, unit := 0x10, inst := t }

/-- The steering value (R476): within ±500 ppm, in the units of TMR_DADJ; which value is free. -/
def steer (s : State) (t : Nat) : State :=
  let (n, s) := freshOf s
  setRg s (ta t 0x55F010) (BitVec.ofInt 32 (((Config.freeWord n).toNat % 1024000001 : Nat) - (512000000 : Int)))

/-- An exchange is complete with offset θ (R476, R477). -/
def exchangeDone (s : State) (t : Nat) (th : Int) : State :=
  let x := (getTile s t).sync
  let was := syncBit s t
  let ths := if syncNear th then (th :: x.thetas).take 8 else []
  let s := modTile s t fun y => { y with sync := { y.sync with t1 := none, thetas := ths, last := y.ns } }
  let s := modRg s (ta t 0x570004) fun w => setFld w 16 16 (BitVec.ofInt 16 (max (-32767) (min 32767 th))).toNat
  let s := steer s t
  if was && !syncNear th then syncFall s t
  else if !was && ths.length == 8 then
    modTile (modRg s (ta t 0x55F014) fun w => setBit w 7 true) t fun y => { y with sync := { y.sync with once := true } }
  else s

/-- The lowest-numbered live link of tile `t` to a tile. -/
def directLink (s : State) (t d : Nat) : Option Nat := (List.range 4).find? fun k => linkLive s t k && peerOf s.nTiles t k == d

/-- SYNC: a request is answered on the link that joins the two tiles; a response completes this tile's exchange (R475). -/
def takeSync (s : State) (t k : Nat) (fl : Flit) : State :=
  let p := fl.payload.toNat
  if bit fl.aux 0 then
    if (getTile s t).sync.t1.isNone || t = 0 then s
    else
      let v (i : Nat) : Int := (p / 2 ^ (80 * i) % 2 ^ 80 : Nat)
      exchangeDone s t (((v 1 - v 0) - ((syncTime s t : Nat) - v 2)) / 2)
  else
    let w := syncTime s t
    let (s, r) := numberFlit s t { mkFlit 0xA 3 fl.src.toNat with
      len := 30, aux := 1, payload := BitVec.ofNat 256 (p % 2 ^ 80 + w * 2 ^ 80 + w * 2 ^ 160) }
    putOnLink s t (if peerOf s.nTiles t k = fl.src.toNat then k else (directLink s t fl.src.toNat).getD k) r

/-! ## CTRL (R461, R468, R471; 04 R137, R161; 15 R528; 18 R616) -/

/-- A message that an HMAC must carry does not verify (04 R137, 14 R509). -/
def badGrant (s : State) (t : Nat) : State := writeFault s t { outcome := 5, cls := 0x10, unit := 0x12, inst := t, ack := true }

/-- A message under the tile's key verifies: `tag` the 48 bytes of its two flits. -/
def ctlVerified (s : State) (t : Nat) (fl : Flit) (tag : BitVec 384) : Bool :=
  match (getTile s t).key with | some k => tag == ctlTag k fl.addr fl.aux | none => false

/-- The unlock that tile 0 delivers (04 R165, R166). -/
def takeUnlock (s : State) (t : Nat) (w : Word) : State :=
  let new : Option (BitVec 4 × BitVec 3) := if bit w 15 then some (BitVec.ofNat 4 (fld w 8 4), BitVec.ofNat 3 (fld w 0 3)) else none
  let old := (getTile s t).unl
  let s := match old with
    | some (q, _) => if new.map Prod.fst = some q then s else releaseDbg (modTile s t fun x => { x with unl := none }) t q.toNat
    | none => s
  modTile s t fun x => { x with unl := new }

/-- A message that an HMAC carries has come (04 R137, R161, R165): verified, it takes effect. -/
def takeAuth (s : State) (t : Nat) (fl : Flit) : State :=
  let x := getTile s t
  let rest := x.half.filter fun e => e.1 != 0x800001
  if t = 0 then s
  else if fl.more then setTile s t { x with half := rest ++ [(0x800001, fl.payload)] }
  else
    let lo := ((x.half.find? fun e => e.1 == 0x800001).map Prod.snd).getD 0
    let s := setTile s t { x with half := rest }
    if !ctlVerified s t fl (BitVec.ofNat 384 (lo.toNat + fl.payload.toNat % 2 ^ 128 * 2 ^ 256)) then badGrant s t
    else if ctlKind fl = ctlUnlock then takeUnlock s t fl.aux
    else setRg s (ta t (0x5C0300 + ctlHi fl % 16 * 4)) fl.aux

/-- A gap notice arrives at the source tile (R471): it re-synchronises ESEQ of the pair by a CTRL flit, which itself takes the next ESEQ of
VC 3. -/
def takeGap (s : State) (t : Nat) (fl : Flit) : State :=
  let d := fl.src.toNat
  let vc := ctlHi fl % 4
  let q := (sget 0 (getTile s t).eseqOut (d * 4 + vc)).toNat + (if vc = 3 then 1 else 0)
  (sendFlit s t (ctrlFlitOf ctlResync d vc (BitVec.ofNat 32 (q % 4096)))).1

/-- A re-synchronisation of ESEQ arrives at the destination (R471). -/
def takeResync (s : State) (t : Nat) (fl : Flit) : State :=
  modTile s t fun x => { x with eseqIn := sput {} x.eseqIn (fl.src.toNat * 4 + ctlHi fl % 4) { expect := BitVec.ofNat 12 fl.aux.toNat } }

/-- A CTRL flit by its kind. -/
def takeCtrl (s : State) (t : Nat) (fl : Flit) : State :=
  let src := fl.src.toNat
  let kind := ctlKind fl
  if kind = ctlLinks then
    rerouteAll (modTile s t fun x =>
      { x with peers := x.peers.filter (· / 4 != src) ++ ((List.range 4).filter (bit fl.aux)).map (src * 4 + ·) }) t
  else if kind = ctlKey then keyTaken s t fl
  else if kind = ctlUnlock || kind = ctlGrant then takeAuth s t fl
  else if kind = ctlMirror then
    if t = 0 && decide (1 ≤ src) then
      (List.range 3).foldl (fun s i => setRg s (mirA src i) (BitVec.ofNat 32 (fld fl.payload (32 * i) 32))) s
    else s
  else if kind = ctlGap then takeGap s t fl
  else if kind = ctlResync then takeResync s t fl
  else if kind = ctlHalt then
    if bit (rg s (ta t 0x5B0000)) 1 && (unlockAt s t).map Prod.fst == some (ctlHi fl) then haltAll s t (ctlHi fl) .notice else s
  else s

/-! ## Delivery (R469) -/

/-- A delivered flit takes effect. -/
def perform (s : State) (t k : Nat) (fl : Flit) : State :=
  match fl.typ.toNat with
  | 1 => takeWrite s t fl
  | 2 => takeRead s t fl
  | 3 => takeRdata s t fl
  | 4 => takeDoorbell s t fl
  | 5 => takeMail s t fl
  | 6 => takeKick s t fl
  | 7 => takeMirwr s t fl
  | 8 => takeMirreq s t fl
  | 9 => takeMirdat s t fl
  | 10 => takeSync s t k fl
  | 11 => takeCtrl s t fl
  | _ => s

/-- The pair of source tile and VC of a flit, and what its destination keeps for it. -/
def eseqKey (fl : Flit) : Nat := fl.src.toNat * 4 + fl.vc.toNat
def getEseq (s : State) (t key : Nat) : EseqIn := sget {} (getTile s t).eseqIn key
def modEseq (s : State) (t key : Nat) (g : EseqIn → EseqIn) : State :=
  modTile s t fun x => { x with eseqIn := sput {} x.eseqIn key (g (sget {} x.eseqIn key)) }

/-- A held flit is used from the copy whose CRC holds (14 R494). -/
def maskHeld (s : State) (t key : Nat) (fl : Flit) : State :=
  if (getEseq s t key).bad.contains fl.eseq then
    modEseq (copyMasked s t 0x0F (key / 4) fl.parcel.toNat 0) t key fun x => { x with bad := x.bad.filter (· != fl.eseq) }
  else s

/-- Held flits whose turn has come are delivered, in order. -/
def releaseHeld : Nat → State → Nat → Nat → Nat → State
  | 0, s, _, _, _ => s
  | n + 1, s, t, k, key =>
    let q := getEseq s t key
    match q.held.find? fun h => h.1.eseq == q.expect with
    | some h =>
      releaseHeld n (perform (modEseq (maskHeld s t key h.1) t key fun x =>
        { x with expect := x.expect + 1, held := x.held.filter fun g => g.1.eseq != h.1.eseq }) t k h.1) t k key
    | none => s

/-- The resynchronisation of VC 3, which bypasses its order (R471). -/
def bypasses (fl : Flit) : Bool := fl.typ == 0xB && ctlKind fl == ctlResync && ctlHi fl % 4 == 3

/-- The flit would have to be held, or is to be held (R469). -/
def mustHold (s : State) (t : Nat) (fl : Flit) : Bool :=
  let q := getEseq s t (eseqKey fl)
  fl.dst.toNat == t && !bypasses fl && !q.refused && fl.eseq != q.expect && decide (2048 < (q.expect - fl.eseq).toNat)

/-- A flit for this tile (R469, R471): delivered in order, discarded as a duplicate or refused, or held. -/
def deliverFlit (s : State) (t k : Nat) (fl : Flit) : State :=
  let key := eseqKey fl
  let q := getEseq s t key
  if bypasses fl then perform s t k fl
  else if q.refused then s
  else if fl.eseq = q.expect then
    releaseHeld q.held.length (perform (modEseq s t key fun x => { x with expect := x.expect + 1 }) t k fl) t k key
  else if mustHold s t fl then
    if q.held.any fun h => h.1.eseq == fl.eseq then modRg s (ta t 0x570008) fun w => bumpFld w 7 9 1
    else modEseq s t key fun x => { x with held := x.held ++ [(fl, now s t)] }
  else modRg s (ta t 0x570008) fun w => bumpFld w 7 9 1

/-- The resequencing store has no room for a flit that must be held (R469). -/
def mustWait (s : State) (t : Nat) (fl : Flit) : Bool := mustHold s t fl && decide (64 ≤ heldFlits s t)

/-- Flits in the receive buffers of tile `t` (R463). -/
def rxWaiting (s : State) (t : Nat) : Nat := (List.range 4).foldl (fun n k => n + (getLink s (t * 4 + k)).rxBuf.length) 0

/-- The first buffered flit of tile `t` that can be delivered, with its link. -/
def rxReady (s : State) (t : Nat) : Option (Nat × Flit) :=
  (List.range 4).findSome? fun k => ((getLink s (t * 4 + k)).rxBuf.find? fun fl => !mustWait s t fl).map fun fl => (k, fl)

/-- Buffered flits are delivered as far as they can be. -/
def rxPump : Nat → State → Nat → State
  | 0, s, _ => s
  | n + 1, s, t =>
    match rxReady s t with
    | some (k, fl) => rxPump n (deliverFlit (modLink s (t * 4 + k) fun l => { l with rxBuf := l.rxBuf.erase fl }) t k fl) t
    | none => s

/-- A sequenced flit with the expected LSEQ: forwarded, delivered, or kept in the link's buffer while the resequencing store is full. -/
def takeFlit (s : State) (t k : Nat) (fl : Flit) : State :=
  let s := acceptFlit s t k fl
  if fl.dst.toNat ≠ t then forward s t fl
  else if mustWait s t fl then modLink s (t * 4 + k) fun l => { l with rxBuf := l.rxBuf ++ [fl] }
  else rxPump (rxWaiting s t) (deliverFlit s t k fl) t

/-- A flit with a good CRC arrives at tile `t` on link `k`. -/
def arrive (s : State) (t k : Nat) (fl : Flit) : State :=
  if !tileRuns s t || !linkLive s t k then s
  else if fl.typ = 0 then (if fl.ackv then takeLack s t k fl.lack else s)
  else if fl.typ = 0xC then replayFrom s t k fl.lack
  else if !keyed s t fl || fl.lseq ≠ (getLink s (t * 4 + k)).expect then sendNak s t k
  else takeFlit s t k fl

/-- A flit of one type arrives; one of another type is not this command's. -/
def arriveAs (s : State) (typ : BitVec 4) (t k : Nat) (fl : Flit) : State := if k < 4 ∧ fl.typ = typ then arrive s t k fl else s

/-- FLIT_CRC_ERROR (R464, R465): a bad CRC, or a flit out of sequence, is discarded; one NAK for the expected LSEQ, and another once a flit with
that LSEQ has come. -/
def crcError (s : State) (t k : Nat) (fl : Flit) (crcBad : Bool) : State :=
  if !tileRuns s t || !linkLive s t k || 4 ≤ k then s
  else if crcBad then
    let s := modRg s (ta t (0x570108 + k * 0x40)) fun w => bumpFld w 0 12 1
    sendNak (modLink s (t * 4 + k) fun l => { l with naked := l.naked && fl.lseq != l.expect }) t k
  else if sequenced fl && fl.lseq ≠ (getLink s (t * 4 + k)).expect then sendNak s t k
  else s

/-- MALFORMED_FLIT (R461): discarded, counted, acknowledged. -/
def malformed (s : State) (t k : Nat) (fl : Flit) : State :=
  let count (s : State) : State := modRg s (ta t (0x570108 + k * 0x40)) fun w => bumpFld w 24 8 1
  if !tileRuns s t || !linkLive s t k || 4 ≤ k then s
  else if !sequenced fl then count s
  else if fl.lseq ≠ (getLink s (t * 4 + k)).expect then sendNak s t k
  else count (acceptFlit s t k fl)

/-- IDLE_FLIT (13 R461, R464). -/
def execIdleFlit (t k : Nat) (fl : Flit) (s : State) : Host.Outcome State Fault Refusal := .next (arriveAs s 0x0 t k fl)

/-- WRITE_FLIT (13 R460, R473). -/
def execWriteFlit (t k : Nat) (fl : Flit) (s : State) : Host.Outcome State Fault Refusal := .next (arriveAs s 0x1 t k fl)

/-- READ_FLIT (13 R474). -/
def execReadFlit (t k : Nat) (fl : Flit) (s : State) : Host.Outcome State Fault Refusal := .next (arriveAs s 0x2 t k fl)

/-- RDATA_FLIT (13 R474). -/
def execRdataFlit (t k : Nat) (fl : Flit) (s : State) : Host.Outcome State Fault Refusal := .next (arriveAs s 0x3 t k fl)

/-- DOORBELL_FLIT (13 R473). -/
def execDoorbellFlit (t k : Nat) (fl : Flit) (s : State) : Host.Outcome State Fault Refusal := .next (arriveAs s 0x4 t k fl)

/-- MAILBOX_FLIT (13 R473; 15 R535). -/
def execMailboxFlit (t k : Nat) (fl : Flit) (s : State) : Host.Outcome State Fault Refusal := .next (arriveAs s 0x5 t k fl)

/-- KICK_FLIT (09 R361; 13 R472). -/
def execKickFlit (t k : Nat) (fl : Flit) (s : State) : Host.Outcome State Fault Refusal := .next (arriveAs s 0x6 t k fl)

/-- MIRWR_FLIT (13 R480). -/
def execMirwrFlit (t k : Nat) (fl : Flit) (s : State) : Host.Outcome State Fault Refusal := .next (arriveAs s 0x7 t k fl)

/-- MIRREQ_FLIT (13 R481, R482). -/
def execMirreqFlit (t k : Nat) (fl : Flit) (s : State) : Host.Outcome State Fault Refusal := .next (arriveAs s 0x8 t k fl)

/-- MIRDAT_FLIT (13 R481, R482). -/
def execMirdatFlit (t k : Nat) (fl : Flit) (s : State) : Host.Outcome State Fault Refusal := .next (arriveAs s 0x9 t k fl)

/-- SYNC_FLIT (13 R475 to R477). -/
def execSyncFlit (t k : Nat) (fl : Flit) (s : State) : Host.Outcome State Fault Refusal := .next (arriveAs s 0xA t k fl)

/-- CTRL_FLIT (13 R461; 04 R137). -/
def execCtrlFlit (t k : Nat) (fl : Flit) (s : State) : Host.Outcome State Fault Refusal := .next (arriveAs s 0xB t k fl)

/-- NAK_FLIT (13 R464, R465). -/
def execNakFlit (t k : Nat) (fl : Flit) (s : State) : Host.Outcome State Fault Refusal := .next (arriveAs s 0xC t k fl)

/-- FLIT_CRC_ERROR (13 R464, R465): `crcBad` where the CRC does not hold. -/
def execFlitCrcError (t k : Nat) (fl : Flit) (crcBad : Bool) (s : State) : Host.Outcome State Fault Refusal := .next (crcError s t k fl crcBad)

/-- MALFORMED_FLIT (13 R461). -/
def execMalformedFlit (t k : Nat) (fl : Flit) (s : State) : Host.Outcome State Fault Refusal := .next (malformed s t k fl)

end Sys2Proof.Machine
end

