-- ==== Sys2Proof/Machine/Flags.lean ====
section
/-! DEFINITION. Condition results (06 R233 to R235): the block has no flags register; a condition is the number 1 or 0 in a register. -/
namespace Sys2Proof.Machine

/-- The whole register of a condition: 1 where it holds, 0 where it does not. -/
def flag (b : Bool) : Vec := if b then 1 else 0
/-- Element 0 of ra against element 0 of rb at the width of E (R234). -/
def cmp0 (e : Nat) (g : (w : Nat) → BitVec w → BitVec w → Bool) (a b : Vec) : Vec :=
  flag (g (widthOf e) (elem a (widthOf e) 0) (elem b (widthOf e) 0))
/-- Any element of ra against the element of rb (07 R259, CANY). -/
def cmpAny (e : Nat) (a b : Vec) : Vec :=
  flag ((List.range (128 / widthOf e)).any fun i => elem a (widthOf e) i == elem b (widthOf e) i)
/-- A branch's test (R235): every bit of the register is 0. -/
def isZero (a : Vec) : Bool := decide (a = 0)

end Sys2Proof.Machine
end

