-- ==== Sys2Proof/Machine/Branch.lean ====
section
/-! DEFINITION. Branches and jumps 0x80 to 0x85 (07 R264; 06 R231, R232). -/
namespace Sys2Proof.Machine

/-- The program counter goes to `a`, and the instruction is complete; the counter wraps at 2^20 (06 R223). -/
def jumpTo (s : State) (c : Nat) (a : BitVec 20) : State := finish (modCtx s c fun x => { x with pc := a &&& 0xFFFFC }) c

/-- A class 4 branch, taken where the test of ra holds. -/
def runBr (s : State) (c : Nat) (f : BitVec 23) (taken : Vec → Bool) : State :=
  runInsn s c false true fun s =>
    if taken (getV s c (raOf f)) then jumpTo s c ((getCtx s c).pc + 4 + dispBr f) else next4 s c

/-- PC + 4 as a link register takes it. -/
def linkVal (s : State) (c : Nat) : Vec := ((getCtx s c).pc + 4).setWidth 128

/-- BZ. -/
def execBz (c : Nat) (f : BitVec 23) (s : State) : Host.Outcome State Fault Refusal :=
  .next (runBr s c f isZero)
/-- BNZ. -/
def execBnz (c : Nat) (f : BitVec 23) (s : State) : Host.Outcome State Fault Refusal :=
  .next (runBr s c f fun a => !isZero a)
/-- J. -/
def execJ (c : Nat) (f : BitVec 23) (s : State) : Host.Outcome State Fault Refusal :=
  .next (runInsn s c false (decide (rdOf f = 0)) fun s => jumpTo s c ((getCtx s c).pc + 4 + dispJmp f))
/-- CALL. -/
def execCall (c : Nat) (f : BitVec 23) (s : State) : Host.Outcome State Fault Refusal :=
  .next (runInsn s c false true fun s =>
    jumpTo (setV s c (rdOf f) (linkVal s c)) c ((getCtx s c).pc + 4 + dispJmp f))
/-- JR. -/
def execJr (c : Nat) (f : BitVec 23) (s : State) : Host.Outcome State Fault Refusal :=
  .next (runInsn s c false (decide (rdOf f = 0) && chkSys f && decide (selOf f = 0)) fun s =>
    jumpTo s c ((getV s c (raOf f)).setWidth 20))
/-- CALLR: the target is read before the link is written. -/
def execCallr (c : Nat) (f : BitVec 23) (s : State) : Host.Outcome State Fault Refusal :=
  .next (runInsn s c false (chkSys f && decide (selOf f = 0)) fun s =>
    jumpTo (setV s c (rdOf f) (linkVal s c)) c ((getV s c (raOf f)).setWidth 20))

end Sys2Proof.Machine
end

