-- ==== Sys2Proof/Machine/Check.lean ====
section
/-! DEFINITION. Frame check and checksum 0xC0 to 0xC2 (07 R274). -/
namespace Sys2Proof.Machine

/-- The first `n` bytes of a register, byte 0 first. -/
def lowBytes (a : Vec) (n : Nat) : List Byte := leBytes n a.toNat

/-- One byte into the reflected CRC-32C. -/
def crc32cByte (c : BitVec 32) (b : Byte) : BitVec 32 := crcBits 0x82F63B78 8 (c ^^^ b.setWidth 32)

/-- End-around-carry sum of 16-bit words. -/
def add1c (a b : Nat) : Nat := (a + b) % 65536 + (a + b) / 65536

/-- The ones'-complement sum of a start value and the 16-bit words of bytes, the first byte of each in its high half. -/
def csum : Nat → List Byte → Nat
  | a, [] => a
  | a, [x] => add1c a (x.toNat * 256)
  | a, x :: y :: rest => csum (add1c a (x.toNat * 256 + y.toNat)) rest

/-- n, FN bits 4:0, from 1 to 16; `top` the bits of FN above them that may be set. -/
def chkN (f : BitVec 23) (top : Nat) : Bool :=
  decide (eOf f = 0) && decide (1 ≤ fnOf f % 32) && decide (fnOf f % 32 ≤ 16) && decide (fnOf f / 32 ≤ top)

/-- A check over n bytes of rb from the start value in ra. -/
def runChk (s : State) (c : Nat) (f : BitVec 23) (top : Nat) (g : Vec → List Byte → Vec) : State :=
  runReg s c f (chkN f top) fun s => g (getV s c (raOf f)) (lowBytes (getV s c (rbOf f)) (fnOf f % 32))

/-- CRC32: FN bit 5 chooses CRC-32C. -/
def execCrc32 (c : Nat) (f : BitVec 23) (s : State) : Host.Outcome State Fault Refusal :=
  .next (runChk s c f 1 fun a bs =>
    (bs.foldl (if fnOf f / 32 = 1 then crc32cByte else crc32Byte) (a.setWidth 32)).setWidth 128)
/-- CRC16. -/
def execCrc16 (c : Nat) (f : BitVec 23) (s : State) : Host.Outcome State Fault Refusal :=
  .next (runChk s c f 0 fun a bs => (bs.foldl crc16Byte (a.setWidth 16)).setWidth 128)
/-- CSUM16. -/
def execCsum16 (c : Nat) (f : BitVec 23) (s : State) : Host.Outcome State Fault Refusal :=
  .next (runChk s c f 0 fun a bs => BitVec.ofNat 128 (csum (a.toNat % 65536) bs))

end Sys2Proof.Machine
end

