-- ==== Sys2Proof/Machine/Compare.lean ====
section
/-! DEFINITION. Compares 0x40 to 0x53 (07 R259). -/
namespace Sys2Proof.Machine

/-- A compare of element 0 at the width of E. -/
def runC (s : State) (c : Nat) (f : BitVec 23) (g : (w : Nat) → BitVec w → BitVec w → Bool) : State :=
  runReg s c f (chkE f) fun s => cmp0 (eOf f) g (getV s c (raOf f)) (getV s c (rbOf f))
/-- A compare of all of ra with IMM15. -/
def runCI (s : State) (c : Nat) (f : BitVec 23) (g : Vec → Vec → Bool) : State :=
  runReg s c f true fun s => flag (g (getV s c (raOf f)) (imm15 f))

/-- CEQ. -/
def execCeq (c : Nat) (f : BitVec 23) (s : State) : Host.Outcome State Fault Refusal :=
  .next (runC s c f (fun _ a b => a == b))
/-- CNE. -/
def execCne (c : Nat) (f : BitVec 23) (s : State) : Host.Outcome State Fault Refusal :=
  .next (runC s c f (fun _ a b => a != b))
/-- CLT. -/
def execClt (c : Nat) (f : BitVec 23) (s : State) : Host.Outcome State Fault Refusal :=
  .next (runC s c f (fun _ a b => a.slt b))
/-- CLE. -/
def execCle (c : Nat) (f : BitVec 23) (s : State) : Host.Outcome State Fault Refusal :=
  .next (runC s c f (fun _ a b => a.sle b))
/-- CLTU. -/
def execCltu (c : Nat) (f : BitVec 23) (s : State) : Host.Outcome State Fault Refusal :=
  .next (runC s c f (fun _ a b => a.ult b))
/-- CLEU. -/
def execCleu (c : Nat) (f : BitVec 23) (s : State) : Host.Outcome State Fault Refusal :=
  .next (runC s c f (fun _ a b => a.ule b))
/-- CANY. -/
def execCany (c : Nat) (f : BitVec 23) (s : State) : Host.Outcome State Fault Refusal :=
  .next (runReg s c f (chkE f) fun s => cmpAny (eOf f) (getV s c (raOf f)) (getV s c (rbOf f)))
/-- CEQI. -/
def execCeqi (c : Nat) (f : BitVec 23) (s : State) : Host.Outcome State Fault Refusal :=
  .next (runCI s c f (fun a b => a == b))
/-- CNEI. -/
def execCnei (c : Nat) (f : BitVec 23) (s : State) : Host.Outcome State Fault Refusal :=
  .next (runCI s c f (fun a b => a != b))
/-- CLTI. -/
def execClti (c : Nat) (f : BitVec 23) (s : State) : Host.Outcome State Fault Refusal :=
  .next (runCI s c f (fun a b => a.slt b))
/-- CLTUI. -/
def execCltui (c : Nat) (f : BitVec 23) (s : State) : Host.Outcome State Fault Refusal :=
  .next (runCI s c f (fun a b => a.ult b))

end Sys2Proof.Machine
end

