-- ==== Sys2Proof/Machine/CtxCmds.lean ====
section
/-! DEFINITION. Commands that move contexts on from outside their instructions: presented events, completed accesses and stores, the
release of committed entries, halts, parcel slots, tag groups. -/
namespace Sys2Proof.Machine

/-- The engine of context `c` serves, in a slot of the context's parcel (04 R170, R173; 09 R358; 14 R499). -/
def engReady (s : State) (c : Nat) : Bool :=
  let e := getEng s (c / 256 * 16 + engOf s c)
  !e.locked && !e.retired && slotOk s c

/-- An IDLE resident context of a RUNNING function starts an activation for its winner (10 R375, 05 R184). -/
def presentStart (s : State) (c : Nat) : State :=
  if !(getCtx s c).resident || !isRunning s (fnOfCtx s c) then s
  else match ctxWinner s c with
    | none => s
    | some n =>
      let vec := (rg s (ta (c / 256) (0x511004 + n * 16))).setWidth 20
      reschedOf (activate (deliver s (c / 256) n (some (c % 256))) c vec (BitVec.ofNat 10 n)) c

/-- An event exception at a boundary inside an activation (10 R375; 09 R341: after a halt or step request). -/
def presentInside (s : State) (c : Nat) : State :=
  let x := getCtx s c
  if x.mid || x.stopped || x.wait = .release || x.haltReq ≠ .none || (x.stepping && !x.stepEv) then s
  else match insideWinner s c with
    | none => s
    | some n => reschedOf (stepEnds (deliverInside s c n) c) c

/-- The controller presents the winner of context `c`, where it may be taken now (10 R373 to R377). -/
def presentEvent (s : State) (c : Nat) : State :=
  if !engReady s c then s
  else match (getCtx s c).st with
    | .idle => presentStart s c
    | .ready | .active | .stalled => presentInside s c
    | _ => s

/-- EVENT_PRESENTATION (10 R375). -/
def execEventPresentation (c : Nat) (s : State) : Host.Outcome State Fault Refusal := .next (presentEvent s c)

/-- A stalled context goes on (05 R190). -/
def wakeCtx (s : State) (c : Nat) (got : List (Word × Nat × Option DWord)) : State :=
  reschedOf (modCtx s c fun x =>
    { x with got := x.got ++ got, wait := .none, st := if x.st = .stalled then .ready else x.st }) c

/-- The access that context `c` waits for is complete: its own tile's, an answer from another tile, the read of an exception entry, which
then runs to its end, or a block that has been sent again (05 R190; notes/assumptions/33.md). On a slot-mode engine it completes at its
fixed time, not before (04 R172). -/
def accessDone (s : State) (c : Nat) : State :=
  match (getCtx s c).wait with
  | .answered a n d due => if dueNow s (c / 256) due then wakeTxn (wakeCtx s c [(a, n, d)]) (c / 256) else s
  | .entry due =>
    if !dueNow s (c / 256) due then s
    else match (getCtx s c).entering with
      | some e => wakeTxn (reschedOf (entryStores s c e) c) (c / 256)
      | none => s
  | .resend b => if (getTile s (c / 256)).resend.any fun x => x.1 == b then s else wakeCtx s c []
  | _ => s

/-- ACCESS_COMPLETE (05 R190). -/
def execAccessComplete (c : Nat) (s : State) : Host.Outcome State Fault Refusal := .next (accessDone s c)

/-- STORE_COMPLETE (05 R200). -/
def execStoreComplete (c : Nat) (s : State) : Host.Outcome State Fault Refusal := .next (storeDone s c)

/-- COMMIT_RELEASE_ENTRY (05 R211, R212). -/
def execCommitReleaseEntry (c : Nat) (s : State) : Host.Outcome State Fault Refusal := .next (releaseOne s c)

/-- HALT_TAKES_EFFECT (18 R611). -/
def execHaltTakesEffect (c : Nat) (s : State) : Host.Outcome State Fault Refusal := .next (haltEffect s c)

/-- A slot begins on a slot-mode engine (04 R170, R171, R173): waiting presentations of its parcel are made, its contexts run. -/
def slotStart (s : State) (t e : Nat) : State :=
  if !slotMode s t e then s
  else resched (((residents s t e).filter (slotOk s)).foldl presentEvent s) t e

/-- PARCEL_SLOT_START (04 R170). -/
def execParcelSlotStart (t e : Nat) (s : State) : Host.Outcome State Fault Refusal := .next (slotStart s t e)

/-- TAG_GROUP_REBUILD (04 R151). -/
def execTagGroupRebuild (t g : Nat) (s : State) : Host.Outcome State Fault Refusal := .next (groupRebuilt s t g)

end Sys2Proof.Machine
end

