-- ==== Sys2Proof/Machine/LinkCmds.lean ====
section
/-! DEFINITION. Events of the chain links outside flits: failures, training, retries, end-to-end gaps, synchronisation exchanges, re-sends
without a route (13 R465 to R482). -/
namespace Sys2Proof.Machine

/-- Link `k` of a tile that runs. -/
def linkThere (s : State) (t k : Nat) : Bool := tileRuns s t && decide (k < 4)

/-- LACK has made no progress for 3 µs while the replay buffer holds a flit (R465). -/
def progressOut (s : State) (t k : Nat) : State :=
  let l := getLink s (t * 4 + k)
  if linkThere s t k && linkLive s t k && !l.replay.isEmpty && atOrAfter (now s t) (l.progress + 3000) then failLink s t k else s

/-- The physical layer has lost training (R465). -/
def trainingLost (s : State) (t k : Nat) : State := if linkThere s t k && linkLive s t k then failLink s t k else s

/-- Requests of blocks that found no route to the partner go out when one exists (R482). -/
def resendAgain (s : State) (t : Nat) : State :=
  (getTile s t).resend.foldl (fun s r =>
    (sendFlit s t { mkFlit 8 2 (partner t) with aux := BitVec.ofNat 32 (r.1 % 32768 * 256 + if 65536 ≤ r.1 then 4 else 0) }).1) s

/-- The other side of a link that returns to service (R466): LSEQ and LACK start at 0 there too, and its replay buffer is emptied; what
that buffer held is still unacknowledged, and it is sent again first (R470). -/
def linkAligned (s : State) (t k : Nat) : State :=
  let m := peerOf s.nTiles t k
  let s := modLink s (m * 4 + peerLink s.nTiles t k) fun l =>
    { l with next := 0, expect := 0, naked := false, replay := [], queue := l.replay.map Prod.fst ++ l.queue, kept := [], badReplay := [],
             credits := Vector.replicate 4 32 }
  drainLink s m (peerLink s.nTiles t k)

/-- A link comes into service (R466): sequence numbers at 0, empty buffers, full credits; what waited for a route goes out. -/
def linkServes (s : State) (t k : Nat) (x8 hi : Bool) : State :=
  let had := partnerRoute s t
  let s := if (getLink s (t * 4 + k)).served then modRg s (ta t (0x57010C + k * 0x40)) fun w => setFld w 16 16 (fld w 16 16 + 1) else s
  let s := setLinkState s t k fun l =>
    { l with st := if x8 then .degraded else .up, x8 := x8, lanesHi := hi, next := 0, expect := 0, naked := false, replay := [], kept := [],
             badReplay := [], credits := Vector.replicate 4 32, tryX8 := false, declared := false, served := true }
  let s := linkAligned s t k
  let s := drainLink s t k
  let s := rerouteAll s t
  if !had && partnerRoute s t then resendAgain s t else s

/-- A first training, or a retraining, that fails is reported once (R457, R466). -/
def linkReport (s : State) (t k : Nat) : State :=
  if (getLink s (t * 4 + k)).declared then s
  else
    let s := modRg s (ta t (0x570100 + k * 0x40)) fun w => setBit w 7 true
    writeFault (modLink s (t * 4 + k) fun l => { l with declared := true }) t { outcome := 3, cls := 0x03, unit := 0x0F, inst := k }

/-- A training attempt ends (R457, R466). -/
def trainingEnd (s : State) (t k : Nat) (res : TrainResult) : State :=
  let l := getLink s (t * 4 + k)
  if !linkThere s t k || l.st ≠ .training then s
  else match res with
    | .x16 => if l.tryX8 then s else linkServes s t k false false
    | .x8 hi => if l.tryX8 then linkServes s t k true hi else s
    | .failed =>
      if !l.tryX8 then modLink s (t * 4 + k) fun l => { l with tryX8 := true }
      else linkReport (setLinkState s t k fun l => { l with st := .failed, tryX8 := false, failedAt := now s t }) t k
    | .wrongPeer => linkReport (setLinkState s t k fun l => { l with st := .down, tryX8 := false }) t k

/-- A FAILED link retries 10 ms after its attempts failed (R466). -/
def retryDue (s : State) (t k : Nat) : State :=
  let l := getLink s (t * 4 + k)
  if linkThere s t k && l.st = .failed && atOrAfter (now s t) (l.failedAt + 10000000) then
    setLinkState s t k fun l => { l with st := .training, tryX8 := false }
  else s

/-- The parcels whose functions bind resources on both tiles (14 R506). -/
def parcelsOnBoth (s : State) (t u : Nat) : List Nat :=
  (List.range 16).filter fun p => (List.range (nFn s)).any fun f =>
    fnParcel s f == p && (tilesOfFn s f).contains t && (tilesOfFn s f).contains u

/-- An end-to-end gap is not filled within 3 µs (R471; 14 R506): record, discard, refusal, notice to the source. -/
def gapOut (s : State) (t src vc : Nat) : State :=
  let key := src * 4 + vc
  match (getEseq s t key).held with
  | [] => s
  | h :: _ =>
    if !tileRuns s t || 4 ≤ vc || !atOrAfter (now s t) (h.2 + 3000) then s
    else
      let r : FaultRec := { outcome := 2, cls := 0x04, unit := 0x0F, inst := src, detail := vc, ack := true }
      let s := writeFault s t r
      let s := ((parcelsOnBoth s t src).filter (· ≠ 0)).foldl (fun s p => writeFltP s t { r with parcel := p }) s
      let s := modEseq s t key fun x => { x with held := [], bad := [], refused := true }
      let s := modRg s (ta t 0x570008) fun w => bumpFld w 24 8 1
      (sendFlit s t (ctrlFlitOf ctlGap src vc 0)).1

/-- 4096 ns have passed since the last request. -/
def syncTimed (s : State) (t : Nat) : Bool :=
  match (getTile s t).sync.asked with | some a => atOrAfter (now s t) (a + 4096) | none => true

/-- An exchange is due (R475, R479): a request to the present parent, over the link that joins the two tiles. -/
def syncDue (s : State) (t : Nat) : State :=
  if !tileRuns s t || t = 0 || !syncTimed s t then s
  else match parentOf s t with
    | none => s
    | some (m, _) =>
      match directLink s t m with
      | none => s
      | some k =>
        let s := modTile s t fun x => { x with sync := { x.sync with t1 := some x.ns, asked := some x.ns, parent := m } }
        let (s, fl) := numberFlit s t { mkFlit 0xA 3 m with len := 10, payload := BitVec.ofNat 256 (syncTime s t) }
        putOnLink s t k fl

/-- 16384 ns without a completed exchange (R477). -/
def syncOut (s : State) (t : Nat) : State :=
  if tileRuns s t && decide (t ≠ 0) && syncBit s t && atOrAfter (now s t) ((getTile s t).sync.last + 16384) then syncFall s t else s

/-- Re-sends that found no route to the partner for 3 µs fail (R482). -/
def mirrorOut (s : State) (t : Nat) : State :=
  if !tileRuns s t || partnerRoute s t then s
  else ((getTile s t).resend.filter fun r => atOrAfter (now s t) (r.2 + 3000)).foldl (fun s r => askLost s t r.1) s

/-- LINK_PROGRESS_TIMEOUT (13 R465). -/
def execLinkProgressTimeout (t k : Nat) (s : State) : Host.Outcome State Fault Refusal := .next (progressOut s t k)

/-- LINK_TRAINING_LOSS (13 R465). -/
def execLinkTrainingLoss (t k : Nat) (s : State) : Host.Outcome State Fault Refusal := .next (trainingLost s t k)

/-- LINK_TRAINING_END (13 R457, R466). -/
def execLinkTrainingEnd (t k : Nat) (res : TrainResult) (s : State) : Host.Outcome State Fault Refusal := .next (trainingEnd s t k res)

/-- LINK_RETRY_TIMER (13 R466). -/
def execLinkRetryTimer (t k : Nat) (s : State) : Host.Outcome State Fault Refusal := .next (retryDue s t k)

/-- ESEQ_GAP_TIMEOUT (13 R471). -/
def execEseqGapTimeout (t src vc : Nat) (s : State) : Host.Outcome State Fault Refusal := .next (gapOut s t src vc)

/-- SYNC_EXCHANGE_DUE (13 R475). -/
def execSyncExchangeDue (t : Nat) (s : State) : Host.Outcome State Fault Refusal := .next (syncDue s t)

/-- SYNC_TIMEOUT (13 R477). -/
def execSyncTimeout (t : Nat) (s : State) : Host.Outcome State Fault Refusal := .next (syncOut s t)

/-- MIRROR_REQUEST_TIMEOUT (13 R482). -/
def execMirrorRequestTimeout (t : Nat) (s : State) : Host.Outcome State Fault Refusal := .next (mirrorOut s t)

end Sys2Proof.Machine
end

