-- ==== Sys2Proof/Machine/FaultCmds.lean ====
section
/-! DEFINITION. Code errors, handshake stalls and the patrol scrub (14 R491 to R504). -/
namespace Sys2Proof.Machine

/-! ## Who and what a fault names (R507, R508) -/

/-- The unit code. -/
def siteUnit : FaultSite → Nat
  | .engine _ _ => 0x01 | .rom _ _ => 0x14 | .snapshot _ _ => 0x05 | .bank _ => 0x04 | .portRx _ => 0x08 | .portTx _ => 0x08 | .pair _ => 0x09 | .events _ _ => 0x0C
  | .sequencer _ => 0x0A | .pwm _ => 0x0B | .link _ => 0x0F | .security => 0x12
  | .hostPort _ => 0x0E

/-- The instance within the unit. -/
def siteInst : FaultSite → Nat
  | .engine e _ => e | .rom e _ => e | .snapshot e _ => e | .portRx p => p | .portTx p => p | .pair k => k | .sequencer n => n | .pwm p => p | .link k => k | _ => 0

/-- The parcel of the affected resource; 0 for a tile-wide one. -/
def siteParcel (s : State) (t : Nat) : FaultSite → Nat
  | .engine _ c => ctxParcel s c
  | .rom _ c => ctxParcel s c
  | .snapshot _ c => ctxParcel s c
  | .portRx p => portParcel s (t * 8 + p)
  | .portTx p => portParcel s (t * 8 + p)
  | .pair k => ownerOf s (fnOfPair s (t * 8 + k))
  | .events n _ => srcOwner s t n
  | .sequencer n => ownerOf s (fnOfSeq s (t * 32 + n))
  | .pwm p => ownerOf s (fnOfPwm s (t * 8 + p))
  | _ => 0

/-- The site's record of a class and outcome (R509, R655). -/
def siteRec (s : State) (t : Nat) (x : FaultSite) (cls outcome : Nat) (ack : Bool) : FaultRec :=
  { outcome, cls, parcel := siteParcel s t x, ctx := match x with | .engine _ c => c | .rom _ c => c | .snapshot _ c => c | _ => 0, unit := siteUnit x, inst := siteInst x, ack }

/-- Numbers of the site exist on tile `t`. -/
def siteThere (s : State) (t : Nat) : FaultSite → Bool
  | .engine e c => decide (c / 256 = t) && engOf s c == e && (getCtx s c).resident
  | .rom e c => decide (c / 256 = t) && engOf s c == e && (getCtx s c).resident
  | .snapshot e c => decide (c / 256 = t) && engOf s c == e && (getCtx s c).resident
  | .portRx p => decide (p < 8)
  | .portTx p => decide (p < 8)
  | .pair k => decide (k < 8)
  | .events n _ => srcExists t n
  | .sequencer n => decide (n < 32)
  | .pwm p => decide (p < 8)
  | .link k => decide (k < 4)
  | .security => true
  | .hostPort _ => t == 0
  | .bank _ => true

/-! ## Outcomes (R497) -/

/-- An engine fault of context `c`: its posted stores are performed, and it restarts (05 R214, R498). -/
def ctxFault (s : State) (c : Nat) : State := reschedOf (engineFault (fence s c) c) c

/-- The access of agent `ag` that waits at tile `t` completes for its issuer with an engine fault or the refusal of 00 R22. -/
def agentFault (t : Nat) (s : State) (ag : Agent) : State :=
  match ag with
  | .ctx c => if (getCtx s c).resident then ctxFault s c else s
  | .host r =>
    match s.hp.out.find? fun x => x.req.rid == r && x.req.tile == t && x.done.isNone with
    | some x => hostAnswer s x.tag 0 true false
    | none => s
  | .dbg _ => match s.dbg.tag with | some tag => dbgAnswer s tag 0 true false | none => s

/-- An access that waits at a bank or arbiter of tile `t`, which is reset, completes for its issuer. -/
def waiterFault (t : Nat) (s : State) (w : Waiter) : State :=
  match w with
  | .agent ag => agentFault t s ag
  | .portRx p => rxFault s (t * 8 + p) 0x02 3
  | .portTx p => txFault s (t * 8 + p)

/-- The unit that issued a transfer (R491). -/
def issuer (s : State) : Waiter → FaultSite
  | .agent (.ctx c) => .engine (engOf s c) c
  | .agent ag => .hostPort ag
  | .portRx p => .portRx p
  | .portTx p => .portTx p

/-- A fault of a port's receive side: the frame in reception is dropped; the gap notice of an admitted one carries the record. -/
def rxSide (s : State) (t p cls outcome : Nat) (ack : Bool) : State :=
  let hit := match (getPort s (t * 8 + p)).rx with | some r => !r.faulted && r.flow.isSome | none => false
  let s := rxFault s (t * 8 + p) cls outcome
  if hit then (if ack then setUnack s t else s) else writeFault s t (siteRec s t (.portRx p) cls outcome ack)

/-- The source's state is affected: PEND ← 1. -/
def eventFault (s : State) (t n : Nat) : State := modSrc s (t * 1024 + n) fun x => { x with pend := true }

/-- An engine fault whose commit snapshot cannot be read: V0 to V15, the program counter and SW are zero, and the context goes IDLE as on
the unhandled path (R502); on exception entry the engine locks (09 R358). -/
def snapLost (s : State) (c : Nat) : State :=
  let x := getCtx s c
  if x.exent then lockEngine s c
  else if !x.act || x.st = .locked then s
  else
    let s := countCtx (fltCount s (c / 256) 0 16) c 0x10
    let s := modCtx s c fun x =>
      { x.restore with v := ({} : Ctx).v, pc := 0, priv := 0, exl := false, ie := false, rpt := false, ecause := 0, edetail := 0, eaddr := 0,
                       epc := 0 }
    endActivation s c

/-- What a code error does at the unit. -/
def codeOutcome (s : State) (t : Nat) : FaultSite → State
  | .engine _ c => ctxFault s c
  | .rom _ c => ctxFault s c
  | .snapshot _ c => reschedOf (snapLost (fence s c) c) c
  | .bank l => l.foldl (waiterFault t) s
  | .portRx _ => s
  | .portTx p => txFault s (t * 8 + p)
  | .pair k => pairCodeError s (t * 8 + k)
  | .events n _ => eventFault s t n
  | .sequencer n => seqFault s (t * 32 + n)
  | .pwm p => pwmTrip s (t * 8 + p) true
  | .link k => sendNak s t k
  | .security => if t = 0 then secFault s else s
  | .hostPort ag => (tilesOf s).foldl (fun s u => agentFault u s ag) s

/-- A code error that is not masked, at one unit, with its record. -/
def unitError (s : State) (t : Nat) (x : FaultSite) : State :=
  if !siteThere s t x then s
  else match x with
    | .portRx p => rxSide s t p 0x01 1 false
    | .rom _ _ => writeFault (codeOutcome s t x) t (siteRec s t x 0x07 1 true)
    | .snapshot _ _ => writeFault (codeOutcome s t x) t (siteRec s t x 0x09 2 true)
    | _ => writeFault (codeOutcome s t x) t (siteRec s t x 0x01 1 false)

/-- A dual-rail code error (R489 to R491, R497, R655): `xfer` says of an interconnect transfer whether its one repeat passes. A repeat that
also fails at a bank or arbiter is a code error of each unit that issued a transfer there. -/
def codeError (s : State) (t : Nat) (x : FaultSite) (xfer : Option Bool) : State :=
  if !tileRuns s t || !siteThere s t x then s
  else
    let s := if xfer.isSome then fltCount s t 16 8 else s
    if xfer = some true then writeFault s t (siteRec s t x 0x01 0 false)
    else match x with
      | .bank l => if xfer = some false then l.foldl (fun s w => unitError s t (issuer s w)) s else unitError s t x
      | _ => unitError s t x

/-- A port is reset (R497): an admitted frame in reception is replaced by a gap notice. -/
def stallPort (s : State) (p : Nat) : State := resetPort (rxFault s p 0x02 3) p

/-- A pair is reset with its ports. -/
def resetPairPorts (s : State) (k : Nat) : State :=
  let e := egressOf s k
  let s := stallPort (resetPair s k) k
  if e = k then s else stallPort s e

/-- A handshake stall (R492, R497, R655). -/
def stallAt (s : State) (t : Nat) (x : FaultSite) : State :=
  if !tileRuns s t || !siteThere s t x then s
  else match x with
    | .engine _ c => writeFault (ctxFault s c) t (siteRec s t x 0x02 1 false)
    | .rom _ c => writeFault (ctxFault s c) t (siteRec s t x 0x02 1 false)
    | .snapshot _ c => writeFault (ctxFault s c) t (siteRec s t x 0x02 1 false)
    | .bank l => writeFault (l.foldl (waiterFault t) s) t (siteRec s t x 0x02 3 true)
    | .portRx p => resetPort (rxSide s t p 0x02 3 true) (t * 8 + p)
    | .portTx p => stallPort (writeFault (txFault s (t * 8 + p)) t (siteRec s t x 0x02 3 true)) (t * 8 + p)
    | .pair k => resetPairPorts (writeFault s t (siteRec s t x 0x02 3 true)) (t * 8 + k)
    | .events n second => writeFault (if second then eventFault s t n else s) t (siteRec s t x 0x02 1 false)
    | .sequencer n => writeFault (seqFault s (t * 32 + n)) t (siteRec s t x 0x02 1 false)
    | .pwm p => writeFault (pwmTrip s (t * 8 + p) true) t (siteRec s t x 0x02 1 false)
    | .link k => let s := writeFault s t (siteRec s t x 0x02 1 false); if linkLive s t k then failLink s t k else s
    | .security => writeFault (codeOutcome s t x) t (siteRec s t x 0x02 1 false)
    | .hostPort _ => writeFault (codeOutcome s t x) t (siteRec s t x 0x02 1 false)

/-! ## Patrol scrub (R493, R495, R496, R502) -/

/-- The block at a place fails its CRC. -/
def markBad (s : State) (t pos : Nat) : State :=
  { s with badBlk := if s.badBlk.contains (badKey t pos) then s.badBlk else s.badBlk ++ [badKey t pos] }

/-- A bad mirror block is repaired from the partner's primary, which the tile asks for (13 R483). -/
def mirrorRepair (s : State) (t b : Nat) : State := askPartner (markBad s t (mirPos b)) t (b + 65536)

/-- A tag group is rebuilt from the copy of the header (04 R151). -/
def groupBad (s : State) (t g : Nat) : State :=
  writeFault (modTile (markGood s t (tagPos + g)) t fun x => { x with rebuild := if x.rebuild.contains g then x.rebuild else x.rebuild ++ [g] }) t
    { outcome := 0, cls := 0x0A, unit := 0x06, addr := ta t (g * 4096) }

/-- The own block of code memory or writable store whose place is `pos`. -/
def ownBlock (pos : Nat) : Nat := if pos < 81920 then pos - 65536 else 16384 + (pos - 98304)

/-- The partner's block whose mirror copy's place is `pos`. -/
def mirBlock (pos : Nat) : Nat := if pos < 98304 then pos - 81920 else 16384 + (pos - 101044)

/-- The block at a place fails its CRC as the scrub reads it: handled as a read would (R495). -/
def scrubBad (s : State) (t pos : Nat) : State :=
  if pos < 65536 then bufferLost s t pos
  else if pos < 81920 then askResend (markBad s t pos) t (ownBlock pos)
  else if pos < 98304 then mirrorRepair s t (mirBlock pos)
  else if pos < 101044 then
    (if powered s t (domQ ((pos - 98304) / 685)) then askResend (markBad s t pos) t (ownBlock pos) else s)
  else if pos < 103784 then mirrorRepair s t (mirBlock pos)
  else if pos < tagPos then ctxBlockLost (markGood s t pos) t (pos - 103784)
  else groupBad s t (pos - tagPos)

/-! ## Second copies (R494) -/

/-- Element `i` of a list changed. -/
def nthMod {α : Type} (l : List α) (i : Nat) (g : α → α) : List α := l.mapIdx fun j x => if j = i then g x else x

/-- A fault strikes the first copy of an entry of tile `t` (R493, R494). -/
def strikeCopy (t : Nat) (s : State) : CopySite → State
  | .staged c i =>
    if c / 256 = t then
      modCtx s c fun x =>
        if i < x.rel.length then { x with rel := nthMod x.rel i fun e => { e with bad := true } }
        else { x with tb := nthMod x.tb (i - x.rel.length) fun e => { e with bad := true } }
    else s
  | .queued p q i => modTxQ s (txKey (t * 8 + p) q) fun x => { x with entries := nthMod x.entries i fun e => { e with bad := true } }
  | .message m i => modMbx s (t * 32 + m) fun x => { x with msgs := nthMod x.msgs i fun e => { e with bad := true } }
  | .replay k lseq =>
    modLink s (t * 4 + k) fun l =>
      if l.replay.any (fun e => e.1.lseq == lseq) && !l.badReplay.contains lseq then { l with badReplay := l.badReplay ++ [lseq] } else l
  | .held src vc eseq =>
    modEseq s t (src * 4 + vc) fun x =>
      if x.held.any (fun e => e.1.eseq == eseq) && !x.bad.contains eseq then { x with bad := x.bad ++ [eseq] } else x

/-- The struck copies of context `c`'s traverse buffer are found and masked. -/
def maskStaged (s : State) (c : Nat) : State :=
  let x := getCtx s c
  let n := ((x.rel ++ x.tb).filter Store.bad).length
  let ok (l : List Store) : List Store := l.map fun e => { e with bad := false }
  (List.range n).foldl (fun s _ => copyMasked s (c / 256) 0x01 (engOf s c) (ctxParcel s c) c)
    (modCtx s c fun x => { x with rel := ok x.rel, tb := ok x.tb })

/-- The struck copies of a transmit queue are found and masked. -/
def maskQueue (s : State) (p q : Nat) : State :=
  let n := ((getTxQ s (txKey p q)).entries.filter TxEntry.bad).length
  (List.range n).foldl (fun s _ => copyMasked s (p / 8) 0x08 (p % 8) (portParcel s p) 0)
    (modTxQ s (txKey p q) fun x => { x with entries := x.entries.map fun e => { e with bad := false } })

/-- The struck copies of a mailbox are found and masked. -/
def maskMailbox (s : State) (m : Nat) : State :=
  let n := ((getMbx s m).msgs.filter Msg.bad).length
  (List.range n).foldl (fun s _ => copyMasked s (m / 32) 0x0D (m % 32) (ownerOf s (fnOfMbx s m)) 0)
    (modMbx s m fun x => { x with msgs := x.msgs.map fun e => { e with bad := false } })

/-- The patrol scrub finds every struck copy of tile `t` that is left at the end of a pass, within the bound of R488. -/
def maskCopies (s : State) (t : Nat) : State :=
  let s := ((s.ctxs.map Prod.fst).filter fun c => c / 256 == t).foldl maskStaged s
  let s := (span (t * 8) 8).foldl (fun s p => (List.range 8).foldl (fun s q => maskQueue s p q) s) s
  let s := (span (t * 32) 32).foldl maskMailbox s
  let s := (List.range 4).foldl (fun s k => maskReplay s t k (getLink s (t * 4 + k)).replay) s
  (List.range 32).foldl (fun s key => (getEseq s t key).held.foldl (fun s e => maskHeld s t key e.1) s) s

/-- The scrub's place advances; the end of a pass updates FLT_SCRUB (R496). -/
def scrubNext (s : State) (t : Nat) : State :=
  let x := getTile s t
  if x.scrubPos + 1 < scrubLen then setTile s t { x with scrubPos := x.scrubPos + 1 }
  else
    let us := min 65535 ((x.ns - x.scrubStart).toNat / 1000)
    let s := modRg (maskCopies (setTile s t { x with scrubPos := 0, scrubStart := x.ns }) t) (ta t 0x580008) fun w =>
      fields [(16, 16, fld w 16 16 + 1), (0, 16, us)]
    raiseEdge s t 0x3C5

/-- One read of the patrol scrub on tile `t` (R495), after faults have struck the first copies of the entries `r.copies`. Its memories stand in
BUF; it stands still while that is not powered. -/
def scrubRead (s : State) (t : Nat) (r : ScrubRead) : State :=
  if !tileRuns s t || !powered s t domBUF then s
  else
    let s := r.copies.foldl (strikeCopy t) s
    let pos := (getTile s t).scrubPos
    scrubNext (if r.crcOk && !isBad s t pos then s else scrubBad s t pos) t

/-- DUAL_RAIL_CODE_ERROR (14 R497). -/
def execDualRailCodeError (t : Nat) (site : FaultSite) (xfer : Option Bool) (s : State) : Host.Outcome State Fault Refusal :=
  .next (codeError s t site xfer)

/-- HANDSHAKE_STALL (14 R492, R497). -/
def execHandshakeStall (t : Nat) (site : FaultSite) (s : State) : Host.Outcome State Fault Refusal := .next (stallAt s t site)

/-- PATROL_SCRUB_READ (14 R494, R495). -/
def execPatrolScrubRead (t : Nat) (r : ScrubRead) (s : State) : Host.Outcome State Fault Refusal :=
  .next (scrubRead s t r)

end Sys2Proof.Machine
end

