-- ==== Sys2Proof/Machine/FnCmds.lean ====
section
/-! DEFINITION. Events of the NVM port, of functions, of the key port and the security unit, and of the watchdogs. -/
namespace Sys2Proof.Machine

/-- NVM_COMMAND_ISSUE (03 R96). -/
def execNvmCommandIssue (s : State) : Host.Outcome State Fault Refusal := .next (nvmIssue s)

/-- NVM_COMMAND_DONE (03 R93, R95). -/
def execNvmCommandDone (s : State) : Host.Outcome State Fault Refusal := .next (nvmDone s)

/-- NVM_COMMAND_TIMEOUT (03 R93). -/
def execNvmCommandTimeout (s : State) : Host.Outcome State Fault Refusal := .next (nvmTimeout s)

/-- RELOAD_START (03 R123, R124). -/
def execReloadStart (s : State) : Host.Outcome State Fault Refusal := .next (reloadBegin s)

/-- RELOAD_COMPLETE (03 R112, R123): `readOk` where every flash read was answered in time. -/
def execReloadComplete (readOk : Bool) (s : State) : Host.Outcome State Fault Refusal := .next (reloadEnd s readOk)

/-- UNLOAD_ZERO_FILL_COMPLETE (03 R113). -/
def execUnloadZeroFillComplete (f : Nat) (s : State) : Host.Outcome State Fault Refusal := .next (zeroDone s f)

/-- DRAIN_COMPLETE (03 R116). -/
def execDrainComplete (f : Nat) (s : State) : Host.Outcome State Fault Refusal := .next (drainDone s f)

/-- DRAIN_LIMIT_EXPIRED (03 R116, R117). -/
def execDrainLimitExpired (f : Nat) (s : State) : Host.Outcome State Fault Refusal := .next (drainForce s f)

/-- KEY_PORT_ACKNOWLEDGE (04 R131, R133): of a request in service; the reads of the start sequence stand in its own operand. -/
def execKeyPortAcknowledge (rd : Word) (err : Bool) (s : State) : Host.Outcome State Fault Refusal := .next (kpAck s rd err)

/-- KEY_PORT_TIMEOUT (04 R132). -/
def execKeyPortTimeout (s : State) : Host.Outcome State Fault Refusal := .next (kpTimeout s)

/-- CHALLENGE_READY (04 R165). -/
def execChallengeReady (s : State) : Host.Outcome State Fault Refusal := .next (chalReady s)

/-- CHALLENGE_EXPIRED (04 R165). -/
def execChallengeExpired (s : State) : Host.Outcome State Fault Refusal := .next (chalExpired s)

/-- UNLOCK_VERIFY_COMPLETE (04 R162, R165, R167). -/
def execUnlockVerifyComplete (s : State) : Host.Outcome State Fault Refusal := .next (unlockVerified s)

/-- UNLOCK_LIFE_EXPIRED (04 R166). -/
def execUnlockLifeExpired (s : State) : Host.Outcome State Fault Refusal := .next (lifeExpired s)

/-- UNLOCK_WAIT_ELAPSED (04 R167). -/
def execUnlockWaitElapsed (s : State) : Host.Outcome State Fault Refusal := .next (waitElapsed s)

/-- SEAL_COMPLETE (04 R176, R177). -/
def execSealComplete (s : State) : Host.Outcome State Fault Refusal := .next (sealDone s)

/-- WATCHDOG_EXPIRED (09 R362). -/
def execWatchdogExpired (p : Nat) (s : State) : Host.Outcome State Fault Refusal := .next (wdExpire s p)

end Sys2Proof.Machine
end

