-- ==== Sys2Proof/Machine/Immediate.lean ====
section
/-! DEFINITION. Immediates and constants 0x10 to 0x19 (07 R257). -/
namespace Sys2Proof.Machine

/-- An operation on ra and IMM15; class 1 has no unused field. -/
def runI (s : State) (c : Nat) (f : BitVec 23) (g : Vec → Vec → Vec) : State :=
  runReg s c f true fun s => g (getV s c (raOf f)) (imm15 f)

/-- ADDI. -/
def execAddi (c : Nat) (f : BitVec 23) (s : State) : Host.Outcome State Fault Refusal :=
  .next (runI s c f (fun a b => a + b))
/-- ANDI. -/
def execAndi (c : Nat) (f : BitVec 23) (s : State) : Host.Outcome State Fault Refusal :=
  .next (runI s c f (fun a b => a &&& b))
/-- ORI. -/
def execOri (c : Nat) (f : BitVec 23) (s : State) : Host.Outcome State Fault Refusal :=
  .next (runI s c f (fun a b => a ||| b))
/-- XORI. -/
def execXori (c : Nat) (f : BitVec 23) (s : State) : Host.Outcome State Fault Refusal :=
  .next (runI s c f (fun a b => a ^^^ b))
/-- MULI. -/
def execMuli (c : Nat) (f : BitVec 23) (s : State) : Host.Outcome State Fault Refusal :=
  .next (runI s c f (fun a b => a * b))
/-- LI: IMM19 sign-extended. -/
def execLi (c : Nat) (f : BitVec 23) (s : State) : Host.Outcome State Fault Refusal :=
  .next (runReg s c f true fun _ => (imm19 f).signExtend 128)
/-- LIU: IMM19 in bits 31:13. -/
def execLiu (c : Nat) (f : BitVec 23) (s : State) : Host.Outcome State Fault Refusal :=
  .next (runReg s c f true fun _ => ((imm19 f).setWidth 128) <<< 13)

end Sys2Proof.Machine
end

