-- ==== Sys2Proof/Machine/Integer.lean ====
section
/-! DEFINITION. Integer and logic operations 0x00 to 0x0F (07 R256). -/
namespace Sys2Proof.Machine

/-- High half of the unsigned product. -/
def mulHigh (w : Nat) (a b : BitVec w) : BitVec w := BitVec.ofNat w (a.toNat * b.toNat / 2 ^ w)
/-- The smaller, signed. -/
def minS (w : Nat) (a b : BitVec w) : BitVec w := if a.slt b then a else b
/-- The larger, signed. -/
def maxS (w : Nat) (a b : BitVec w) : BitVec w := if a.slt b then b else a
/-- The smaller, unsigned. -/
def minU (w : Nat) (a b : BitVec w) : BitVec w := if a.ult b then a else b
/-- The larger, unsigned. -/
def maxU (w : Nat) (a b : BitVec w) : BitVec w := if a.ult b then b else a
/-- Unsigned saturating sum. -/
def addSat (w : Nat) (a b : BitVec w) : BitVec w := BitVec.ofNat w (Nat.min (a.toNat + b.toNat) (2 ^ w - 1))
/-- Unsigned saturating difference. -/
def subSat (w : Nat) (a b : BitVec w) : BitVec w := BitVec.ofNat w (a.toNat - b.toNat)

/-- An operation on ra and rb at the width of E. -/
def runE (s : State) (c : Nat) (f : BitVec 23) (g : (w : Nat) → BitVec w → BitVec w → BitVec w) : State :=
  runReg s c f (chkE f) fun s => map2 (eOf f) g (getV s c (raOf f)) (getV s c (rbOf f))
/-- An operation on the whole of ra and rb. -/
def runW (s : State) (c : Nat) (f : BitVec 23) (g : Vec → Vec → Vec) : State :=
  runReg s c f (chkWhole f) fun s => g (getV s c (raOf f)) (getV s c (rbOf f))
/-- An operation on the whole of ra. -/
def runW1 (s : State) (c : Nat) (f : BitVec 23) (g : Vec → Vec) : State :=
  runReg s c f (chkWhole1 f) fun s => g (getV s c (raOf f))

/-- ADD. -/
def execAdd (c : Nat) (f : BitVec 23) (s : State) : Host.Outcome State Fault Refusal :=
  .next (runE s c f (fun _ a b => a + b))
/-- SUB. -/
def execSub (c : Nat) (f : BitVec 23) (s : State) : Host.Outcome State Fault Refusal :=
  .next (runE s c f (fun _ a b => a - b))
/-- MUL. -/
def execMul (c : Nat) (f : BitVec 23) (s : State) : Host.Outcome State Fault Refusal :=
  .next (runE s c f (fun _ a b => a * b))
/-- MULHU. -/
def execMulhu (c : Nat) (f : BitVec 23) (s : State) : Host.Outcome State Fault Refusal :=
  .next (runE s c f mulHigh)
/-- MIN. -/
def execMin (c : Nat) (f : BitVec 23) (s : State) : Host.Outcome State Fault Refusal :=
  .next (runE s c f minS)
/-- MAX. -/
def execMax (c : Nat) (f : BitVec 23) (s : State) : Host.Outcome State Fault Refusal :=
  .next (runE s c f maxS)
/-- MINU. -/
def execMinu (c : Nat) (f : BitVec 23) (s : State) : Host.Outcome State Fault Refusal :=
  .next (runE s c f minU)
/-- MAXU. -/
def execMaxu (c : Nat) (f : BitVec 23) (s : State) : Host.Outcome State Fault Refusal :=
  .next (runE s c f maxU)
/-- ADDS. -/
def execAdds (c : Nat) (f : BitVec 23) (s : State) : Host.Outcome State Fault Refusal :=
  .next (runE s c f addSat)
/-- SUBS. -/
def execSubs (c : Nat) (f : BitVec 23) (s : State) : Host.Outcome State Fault Refusal :=
  .next (runE s c f subSat)
/-- AND. -/
def execAnd (c : Nat) (f : BitVec 23) (s : State) : Host.Outcome State Fault Refusal :=
  .next (runW s c f (fun a b => a &&& b))
/-- OR. -/
def execOr (c : Nat) (f : BitVec 23) (s : State) : Host.Outcome State Fault Refusal :=
  .next (runW s c f (fun a b => a ||| b))
/-- XOR. -/
def execXor (c : Nat) (f : BitVec 23) (s : State) : Host.Outcome State Fault Refusal :=
  .next (runW s c f (fun a b => a ^^^ b))
/-- ANDN. -/
def execAndn (c : Nat) (f : BitVec 23) (s : State) : Host.Outcome State Fault Refusal :=
  .next (runW s c f (fun a b => a &&& ~~~b))
/-- NOT. -/
def execNot (c : Nat) (f : BitVec 23) (s : State) : Host.Outcome State Fault Refusal :=
  .next (runW1 s c f (fun a => ~~~a))
/-- MOV. -/
def execMov (c : Nat) (f : BitVec 23) (s : State) : Host.Outcome State Fault Refusal :=
  .next (runW1 s c f (fun a => a))

end Sys2Proof.Machine
end

