-- ==== Sys2Proof/Machine/LoadStore.lean ====
section
/-! DEFINITION. Loads and stores 0x60 to 0x6C (07 R260 to R263; 06 R229, R230). -/
namespace Sys2Proof.Machine

/-- The address of a class 3 operation (R230). -/
def memAddr (s : State) (c : Nat) (f : BitVec 23) : Nat := ((getV s c (raOf f)).setWidth 32 + disp15 f).toNat

/-- A refused read or store of the instruction at the program counter: access-denied names the address (09 R335). -/
def refuse (s : State) (c cause det a : Nat) : State := raise_ s c cause det (if cause = 1 then BitVec.ofNat 32 a else 0)

/-- The activation ends by a read of a lost block (14 R500). -/
def readLost (s : State) (c : Nat) : State := reschedOf (abandon (stepEnds s c) c) c

/-- A load of `n` bytes from `a`, then `k` with the datum, after the data watches; what the watches raise at the next boundary joins
`b`. -/
def loadThen (s : State) (c a n : Nat) (b : Option Nat) (k : State → Nat → Option Nat → State) : State :=
  match ctxRead s c a n with
  | (s, .val v) => let w := watchData s c true false a n v; k w.1 v (b.or w.2)
  | (s, .exc d) => refuse s c 1 d a
  | (s, .lost) => readLost s c
  | (s, .stalled) => s

/-- A store of `n` bytes to `a`, then `k`. -/
def storeThen (s : State) (c a n v : Nat) (b : Option Nat) (k : State → Option Nat → State) : State :=
  match ctxStore s c a n v with
  | (s, .done) => let w := watchData s c false true a n v; k w.1 (b.or w.2)
  | (s, .exc cause det) => refuse s c cause det a
  | (s, .stalled) => s

/-- A 128-bit access that is not aligned to 16 bytes: refused before either half, unless its address is outside the map (05 R199). -/
def misaligned (s : State) (c a : Nat) (wr : Bool) : State :=
  let d := if a / 0x1000000 = c / 256 then checkAcc s (ctxAcc s c) a 8 wr else remoteCheck s c a 8 wr
  refuse (countDeny s (c / 256) (ctxAcc s c).parcel) c 1 (if d = 3 then 3 else 4) a

/-- The end of a load: rd written, the instruction complete, then what a data watch raises. -/
def loadEnd (s : State) (c : Nat) (f : BitVec 23) (w : Vec) (b : Option Nat) : State := breakAfter (next4 (setV s c (rdOf f) w) c) c b

/-- A load of `n` bytes, extended by `ext`. -/
def runLoad (s : State) (c : Nat) (f : BitVec 23) (n : Nat) (ext : Nat → Vec) : State :=
  runInsn s c false true fun s =>
    let a := memAddr s c f
    loadThen s c a n none fun s v b => loadEnd s c f (ext v) b

/-- Zero-extended. -/
def zext (v : Nat) : Vec := BitVec.ofNat 128 v
/-- Sign-extended from `n` bytes. -/
def sextB (n v : Nat) : Vec := (BitVec.ofNat (8 * n) v).signExtend 128

/-- A store of the low `n` bytes of rd. -/
def runStore (s : State) (c : Nat) (f : BitVec 23) (n : Nat) : State :=
  runInsn s c false true fun s =>
    storeThen s c (memAddr s c f) n ((getV s c (rdOf f)).toNat % 2 ^ (8 * n)) none fun s b => breakAfter (next4 s c) c b

/-- LD8. -/
def execLd8 (c : Nat) (f : BitVec 23) (s : State) : Host.Outcome State Fault Refusal := .next (runLoad s c f 1 zext)
/-- LD16. -/
def execLd16 (c : Nat) (f : BitVec 23) (s : State) : Host.Outcome State Fault Refusal := .next (runLoad s c f 2 zext)
/-- LD32. -/
def execLd32 (c : Nat) (f : BitVec 23) (s : State) : Host.Outcome State Fault Refusal := .next (runLoad s c f 4 zext)
/-- LD64. -/
def execLd64 (c : Nat) (f : BitVec 23) (s : State) : Host.Outcome State Fault Refusal := .next (runLoad s c f 8 zext)
/-- LDS8. -/
def execLds8 (c : Nat) (f : BitVec 23) (s : State) : Host.Outcome State Fault Refusal := .next (runLoad s c f 1 (sextB 1))
/-- LDS16. -/
def execLds16 (c : Nat) (f : BitVec 23) (s : State) : Host.Outcome State Fault Refusal := .next (runLoad s c f 2 (sextB 2))
/-- LDS32. -/
def execLds32 (c : Nat) (f : BitVec 23) (s : State) : Host.Outcome State Fault Refusal := .next (runLoad s c f 4 (sextB 4))
/-- LD128: two 64-bit reads, the lower first (05 R199). -/
def execLd128 (c : Nat) (f : BitVec 23) (s : State) : Host.Outcome State Fault Refusal :=
  .next (runInsn s c false true fun s =>
    let a := memAddr s c f
    if a % 16 ≠ 0 then misaligned s c a false
    else loadThen s c a 8 none fun s lo b => loadThen s c (a + 8) 8 b fun s hi b =>
      loadEnd s c f (BitVec.ofNat 128 (lo + hi * 2 ^ 64)) b)
/-- ST8. -/
def execSt8 (c : Nat) (f : BitVec 23) (s : State) : Host.Outcome State Fault Refusal := .next (runStore s c f 1)
/-- ST16. -/
def execSt16 (c : Nat) (f : BitVec 23) (s : State) : Host.Outcome State Fault Refusal := .next (runStore s c f 2)
/-- ST32. -/
def execSt32 (c : Nat) (f : BitVec 23) (s : State) : Host.Outcome State Fault Refusal := .next (runStore s c f 4)
/-- ST64. -/
def execSt64 (c : Nat) (f : BitVec 23) (s : State) : Host.Outcome State Fault Refusal := .next (runStore s c f 8)

/-- Two posted stores that would both pass. -/
def twoPass (s : State) (c a v : Nat) : Bool :=
  !isStaged c a && (busWrite s (ctxAcc s c) a 8 v).2 == 0 && (busWrite s (ctxAcc s c) (a + 8) 8 v).2 == 0

/-- What the two stores wait for together: the slot, the queue, transactions (04 R171, 05 R200). -/
def waits2 (s : State) (c a v : Nat) : Option State :=
  if !twoPass s c a v then none
  else if !slotTime s c (slotNs a) then some (slotWait s c)
  else if 6 < (getCtx s c).stores.length then some (stallIn (countCtx s c 0x06) c .storeQueue)
  else if !txnFree s c 2 then some (stallIn s c .transaction) else none

/-- ST128: two 64-bit stores, the lower first (05 R199, R209). -/
def execSt128 (c : Nat) (f : BitVec 23) (s : State) : Host.Outcome State Fault Refusal :=
  .next (runInsn s c false true fun s =>
    let a := memAddr s c f
    let v := (getV s c (rdOf f)).toNat
    if a % 16 ≠ 0 then misaligned s c a true
    else match waits2 s c a v with
    | some s => s
    | none => storeThen s c a 8 (v % 2 ^ 64) none fun s b => storeThen s c (a + 8) 8 (v / 2 ^ 64) b fun s b => breakAfter (next4 s c) c b)

end Sys2Proof.Machine
end

