-- ==== Sys2Proof/Machine/Repeat.lean ====
section
/-! DEFINITION. Block-repeat instructions 0x90 to 0x95 (07 R265 to R272). -/
namespace Sys2Proof.Machine

/-! ## The merge buffers (R268) -/

/-- The merged store is issued: one posted store or one traverse-buffer entry. -/
def repFlush (s : State) (c : Nat) (b : RepBuf) : State :=
  match b.pend with
  | none => s
  | some (a, n, v) =>
    let st : Store := { addr := BitVec.ofNat 32 a, size := n, data := BitVec.ofNat 64 v }
    if isStaged c a then modCtx s c fun x => { x with tb := x.tb ++ [st] } else modCtx s c fun x => { x with stores := x.stores ++ [{ st with due := slotDue s c a }] }

/-- A doubleword as the context sees it, the merged store included (05 R204). -/
def overlay (b : RepBuf) (base v : Nat) : Nat :=
  match b.pend with
  | none => v
  | some (a, n, w) => if base ≤ a && a < base + 8 then (setFld (BitVec.ofNat 64 v) (8 * (a - base)) (8 * n) w).toNat else v

/-- What an element's access did. -/
inductive Elt where
  | val (v : Nat)
  | exc (cause det a : Nat)
  | lost
  | stalled
  deriving DecidableEq, Repr

/-- An element of `n` bytes read at `a`, from the held doubleword `h` where it lies in it. -/
def repRead (s : State) (c : Nat) (b : RepBuf) (h : Option (Nat × Nat)) (a n : Nat) : State × Option (Nat × Nat) × Elt :=
  let own := decide (a / 0x1000000 = c / 256)
  let det := if own then checkAcc s (ctxAcc s c) a n false else remoteCheck s c a n false
  let whole := decide (a % 0x1000000 < 0x500000) && decide (det = 0)
  let base := if whole then a - a % 8 else a
  let w := if whole then 8 else n
  let part (v : Nat) : Nat := v >>> (8 * (a - base)) % 2 ^ (8 * n)
  match h.filter fun x => whole && x.1 == base with
  | some (_, v) => (s, h, .val (part v))
  | none =>
    match ctxRead s c base w with
    | (s, .val v) =>
      if whole then (s, some (base, overlay b base v), .val (part (overlay b base v))) else (s, h, .val (part v))
    | (s, .exc d) => (s, h, .exc 1 d a)
    | (s, .lost) => (s, h, .lost)
    | (s, .stalled) => (s, h, .stalled)

/-- The check of an element's store: 0, or the detail of its refusal, with the state that the refusal leaves. -/
def repCheck (s : State) (c a n v : Nat) : State × Nat :=
  if isStaged c a then
    match stageCheck s c a n v with
    | 0 => (s, 0)
    | d => (countDeny s (c / 256) (ctxAcc s c).parcel, d)
  else
    match busWrite s (ctxAcc s c) a n v with
    | (_, 0) => (s, 0)
    | (s, d) => (s, d)

/-- An element of `n` bytes stored at `a`: register space at once; else into the merged store. A new doubleword issues the last one and
needs an entry or a place in the queue for itself. -/
def repWrite (s : State) (c : Nat) (b : RepBuf) (a n v : Nat) : State × RepBuf × Elt :=
  if 0x500000 ≤ a % 0x1000000 then
    match ctxStore (repFlush s c b) c a n v with
    | (s, .done) => (s, { b with pend := none }, .val 0)
    | (s, .exc cause d) => (s, { b with pend := none }, .exc cause d a)
    | (s, .stalled) => (s, { b with pend := none }, .stalled)
  else
    match repCheck s c a n v with
    | (s, 0) =>
      match b.pend.filter fun x => x.1 / 8 == a / 8 && x.1 + x.2.1 == a with
      | some (p, k, w) => (s, { b with pend := some (p, k + n, w + v * 2 ^ (8 * k)) }, .val 0)
      | none =>
        let s := repFlush s c b
        let b' := { b with pend := none }
        if isStaged c a && decide ((getCtx s c).tb.length = 32) then (s, b', .exc 5 0 a)
        else if !isStaged c a && !slotTime s c (slotNs a) then (slotWait s c, b', .stalled)
        else if !isStaged c a && decide (8 ≤ (getCtx s c).stores.length) then
          (stallIn (countCtx s c 0x06) c .storeQueue, b', .stalled)
        else if !isStaged c a && !txnFree s c 1 then (stallIn s c .transaction, b', .stalled)
        else (s, { b' with pend := some (a, n, v) }, .val 0)
    | (s, d) => (s, b, .exc 1 d a)

/-! ## The walk -/

/-- Bits 31:0 of a register. -/
def low32 (s : State) (c n : Nat) : Nat := (getV s c n).toNat % 2 ^ 32
/-- Bits 31:0 of a register set, the rest kept (R266). -/
def setLow32 (s : State) (c n v : Nat) : State := setV s c n (setFld (getV s c n) 0 32 v)

/-- One element's reads and writes are done: V13 and V14 advance as told, V12 decreases. -/
def repAdvance (s : State) (c n : Nat) (src dst : Bool) : State :=
  let s := if src then setLow32 s c 13 (low32 s c 13 + n) else s
  let s := if dst then setLow32 s c 14 (low32 s c 14 + n) else s
  modCtx (setLow32 s c 12 (low32 s c 12 + 2 ^ 32 - 1)) c fun x => { x with mid := false, got := [] }

/-- What one element did: go on, stop at a match with a result, or an end. -/
inductive EStep where
  | go
  | stop (w : Vec)
  | exc (cause det a : Nat)
  | lost
  | stalled

/-- An access's data watches. -/
def repWatch (s : State) (c : Nat) (b : RepBuf) (rd : Bool) (a n v : Nat) : State × RepBuf :=
  let r := watchData s c rd (!rd) a n v
  (r.1, { b with brk := b.brk.or r.2 })

/-- An element read from the address in V13 or V14, then `k`. -/
def repLoad (s : State) (c : Nat) (b : RepBuf) (reg n : Nat) (k : State → RepBuf → Nat → State × RepBuf × EStep) :
    State × RepBuf × EStep :=
  let a := low32 s c reg
  match repRead s c b (if reg = 13 then b.h13 else b.h14) a n with
  | (s, h, .val v) =>
    let b := if reg = 13 then { b with h13 := h } else { b with h14 := h }
    let r := repWatch s c b true a n v
    k r.1 r.2 v
  | (s, _, .exc cause d a) => (s, b, .exc cause d a)
  | (s, _, .lost) => (s, b, .lost)
  | (s, _, .stalled) => (s, b, .stalled)

/-- An element stored at the address in V14, then the advance. -/
def repStore (s : State) (c : Nat) (b : RepBuf) (n v : Nat) (src : Bool) : State × RepBuf × EStep :=
  let a := low32 s c 14
  match repWrite s c b a n v with
  | (s, b, .val _) => let r := repWatch s c b false a n v; (repAdvance r.1 c n src true, r.2, .go)
  | (s, b, .exc cause d a) => (s, b, .exc cause d a)
  | (s, b, .lost) => (s, b, .lost)
  | (s, b, .stalled) => (s, b, .stalled)

/-- The end of an interrupted walk: every element complete and its store issued; SW.RPT is 1 (R269). -/
def repPause (s : State) (c : Nat) (b : RepBuf) : State :=
  breakAfter (reschedOf (stepEnds (modCtx (repFlush s c b) c fun x => { x with rep := {} }) c) c) c b.brk

/-- The instruction is complete: SW.RPT 0. -/
def repEnd (s : State) (c : Nat) (b : RepBuf) : State :=
  breakAfter (next4 (modCtx (repFlush s c b) c fun x => { x with rpt := false }) c) c b.brk

/-- The walk stalls inside an element: the merged store and a breakpoint wait with it; the held doublewords too, until another context runs
(R268). -/
def keepRep (s : State) (c : Nat) (b : RepBuf) : State :=
  modCtx s c fun x => { x with rep := if x.st = .stalled then { b with h13 := x.rep.h13.bind fun _ => b.h13, h14 := x.rep.h14.bind fun _ => b.h14 } else b }

/-- At most `k` elements (R266): `el` one element, `fin` what completion writes. -/
def repLoop (c : Nat) (f : BitVec 23) (el : State → RepBuf → State × RepBuf × EStep) (fin : State → State) : Nat → State → RepBuf → State
  | 0, s, b => repPause s c b
  | k + 1, s, b =>
    match el (modCtx s c fun x => { x with rep := b }) b with
    | (s, b, .go) =>
      if low32 s c 12 = 0 then repEnd (fin s) c b
      else if (getCtx s c).stepping || b.brk.isSome || decide ((getCtx s c).haltReq ≠ .none) then repPause s c b
      else repLoop c f el fin k s b
    | (s, b, .stop w) => repEnd (setV s c (rdOf f) w) c b
    | (s, b, .exc cause d a) => refuse (repFlush s c b) c cause d a
    | (s, b, .lost) => readLost (repFlush s c b) c
    | (s, b, .stalled) => keepRep s c b

/-- A block-repeat instruction that the outside interrupts after `n` elements (at least one). `zero` is what a count of 0 writes. -/
def runRep (s : State) (c : Nat) (f : BitVec 23) (n : Nat) (ok : Bool) (zero : State → State)
    (el : State → RepBuf → State × RepBuf × EStep) (fin : State → State) : State :=
  runInsn s c (getCtx s c).rpt ok fun s =>
    if low32 s c 12 = 0 then repEnd (zero s) c {}
    else repLoop c f el fin (max 1 n) (modCtx s c fun x => { x with rpt := true }) (if (getCtx s c).mid then (getCtx s c).rep else {})

/-- E from 0b001 to 0b100, and the fields above FN that `mask` names 0. -/
def chkRep (f : BitVec 23) (mask : BitVec 23) : Bool := decide (1 ≤ eOf f) && eOk f && decide (f &&& mask = 0)

/-- Bytes of an element. -/
def repN (f : BitVec 23) : Nat := widthOf (eOf f) / 8

/-- Element 0 of a register at the width of E. -/
def e0 (s : State) (c : Nat) (f : BitVec 23) (r : Nat) : Nat := (getV s c r).toNat % 2 ^ widthOf (eOf f)

/-- RMOV. -/
def execRmov (c : Nat) (f : BitVec 23) (n : Nat) (s : State) : Host.Outcome State Fault Refusal :=
  .next (runRep s c f n (chkRep f 0x7FF8FF) id
    (fun s b => repLoad s c b 13 (repN f) fun s b v => repStore s c b (repN f) v true) id)

/-- RFILL. -/
def execRfill (c : Nat) (f : BitVec 23) (n : Nat) (s : State) : Host.Outcome State Fault Refusal :=
  .next (runRep s c f n (chkRep f 0x7878FF) id (fun s b => repStore s c b (repN f) (e0 s c f (raOf f)) false) id)

/-- RCMP. -/
def execRcmp (c : Nat) (f : BitVec 23) (n : Nat) (s : State) : Host.Outcome State Fault Refusal :=
  .next (runRep s c f n (chkRep f 0x07F8FF) (fun s => setV s c (rdOf f) 1)
    (fun s b => repLoad s c b 13 (repN f) fun s b x => repLoad s c b 14 (repN f) fun s b y =>
      if x ≠ y then (s, b, .stop 0) else (repAdvance s c (repN f) true true, b, .go))
    fun s => setV s c (rdOf f) 1)

/-- RSCAN. -/
def execRscan (c : Nat) (f : BitVec 23) (n : Nat) (s : State) : Host.Outcome State Fault Refusal :=
  .next (runRep s c f n (chkRep f 0x0000FF) (fun s => setV s c (rdOf f) 0)
    (fun s b => repLoad s c b 13 (repN f) fun s b x =>
      if x &&& e0 s c f (rbOf f) = e0 s c f (raOf f) &&& e0 s c f (rbOf f) then (s, b, .stop 1)
      else (repAdvance s c (repN f) true false, b, .go))
    fun s => setV s c (rdOf f) 0)

/-- The CRC of RCRC by FN bits 1:0. -/
def rcrcByte (fn v : Nat) (b : Byte) : Nat :=
  match fn with
  | 0 => (crc32Byte (BitVec.ofNat 32 v) b).toNat
  | 1 => (crc32cByte (BitVec.ofNat 32 v) b).toNat
  | _ => (crc16Byte (BitVec.ofNat 16 v) b).toNat

/-- rd bits 127:32 cleared at completion. -/
def clearHigh (s : State) (c : Nat) (f : BitVec 23) : State := setV s c (rdOf f) (BitVec.ofNat 128 (low32 s c (rdOf f)))

/-- RCRC. -/
def execRcrc (c : Nat) (f : BitVec 23) (n : Nat) (s : State) : Host.Outcome State Fault Refusal :=
  .next (runRep s c f n (chkRep f 0x07F8FC && decide (eOf f = 4) && decide (fnOf f < 3)) id
    (fun s b => repLoad s c b 13 1 fun s b v =>
      let s := setLow32 s c (rdOf f) (rcrcByte (fnOf f) (low32 s c (rdOf f)) (BitVec.ofNat 8 v))
      (repAdvance s c 1 true false, b, .go))
    fun s => clearHigh s c f)

/-- RSUM. -/
def execRsum (c : Nat) (f : BitVec 23) (n : Nat) (s : State) : Host.Outcome State Fault Refusal :=
  .next (runRep s c f n (chkRep f 0x07F8FE && decide (3 ≤ eOf f) && (decide (fnOf f = 0) || decide (eOf f = 3))) id
    (fun s b => repLoad s c b 13 (repN f) fun s b v =>
      let old := low32 s c (rdOf f)
      let s := setLow32 s c (rdOf f) (if fnOf f = 0 then old + v else add1c (old % 65536) v)
      (repAdvance s c (repN f) true false, b, .go))
    fun s => clearHigh s c f)

end Sys2Proof.Machine
end

