-- ==== Sys2Proof/Machine/Shift.lean ====
section
/-! DEFINITION. Shift, lane and bit operations 0x20 to 0x2E (07 R258). -/
namespace Sys2Proof.Machine

/-- Bytes of an element in the opposite order. -/
def swapBytes (w : Nat) (a : BitVec w) : BitVec w := BitVec.ofNat w (beVal (leBytes (w / 8) a.toNat))
/-- Leading zeros of a bit vector, counted from bit n-1 down. -/
def clzFrom {w : Nat} (a : BitVec w) : Nat → Nat
  | 0 => 0
  | n + 1 => if a.getLsbD n then 0 else clzFrom a n + 1
/-- Leading zeros of an element. -/
def clzE (w : Nat) (a : BitVec w) : BitVec w := BitVec.ofNat w (clzFrom a w)
/-- 1 bits of an element. -/
def popE (w : Nat) (a : BitVec w) : BitVec w := BitVec.ofNat w ((List.range w).countP fun i => a.getLsbD i)
/-- One byte of PERM: 0, or the byte of `a` that the control byte names. -/
def permByte (a : Vec) (b : BitVec 8) : BitVec 8 := if b.getLsbD 7 then 0 else elem a 8 (b.toNat % 16)

/-- A shift by the elements of rb. -/
def runSh (s : State) (c : Nat) (f : BitVec 23) (g : (w : Nat) → BitVec w → Nat → BitVec w) : State :=
  runReg s c f (chkE f) fun s => map2 (eOf f) (fun w a b => g w a (b.toNat % w)) (getV s c (raOf f)) (getV s c (rbOf f))
/-- A shift by FN bits 6:0. -/
def runShI (s : State) (c : Nat) (f : BitVec 23) (g : (w : Nat) → BitVec w → Nat → BitVec w) : State :=
  runReg s c f (chkShift f) fun s => map1 (eOf f) (fun w a => g w a (fnOf f)) (getV s c (raOf f))
/-- An operation on each element of ra. -/
def runE1 (s : State) (c : Nat) (f : BitVec 23) (g : (w : Nat) → BitVec w → BitVec w) : State :=
  runReg s c f (chkE1 f) fun s => map1 (eOf f) g (getV s c (raOf f))
/-- Element k of ra, by FN bits 3:0. -/
def selE (s : State) (c : Nat) (f : BitVec 23) : BitVec (widthOf (eOf f)) := elem (getV s c (raOf f)) (widthOf (eOf f)) (fnOf f)

/-- SHL. -/
def execShl (c : Nat) (f : BitVec 23) (s : State) : Host.Outcome State Fault Refusal :=
  .next (runSh s c f (fun _ a n => a <<< n))
/-- SHR. -/
def execShr (c : Nat) (f : BitVec 23) (s : State) : Host.Outcome State Fault Refusal :=
  .next (runSh s c f (fun _ a n => a >>> n))
/-- SAR. -/
def execSar (c : Nat) (f : BitVec 23) (s : State) : Host.Outcome State Fault Refusal :=
  .next (runSh s c f (fun _ a n => a.sshiftRight n))
/-- ROL. -/
def execRol (c : Nat) (f : BitVec 23) (s : State) : Host.Outcome State Fault Refusal :=
  .next (runSh s c f (fun w a n => a.rotateLeft (n % w)))
/-- SHLI. -/
def execShli (c : Nat) (f : BitVec 23) (s : State) : Host.Outcome State Fault Refusal :=
  .next (runShI s c f (fun _ a n => a <<< n))
/-- SHRI. -/
def execShri (c : Nat) (f : BitVec 23) (s : State) : Host.Outcome State Fault Refusal :=
  .next (runShI s c f (fun _ a n => a >>> n))
/-- SARI. -/
def execSari (c : Nat) (f : BitVec 23) (s : State) : Host.Outcome State Fault Refusal :=
  .next (runShI s c f (fun _ a n => a.sshiftRight n))
/-- ROLI. -/
def execRoli (c : Nat) (f : BitVec 23) (s : State) : Host.Outcome State Fault Refusal :=
  .next (runShI s c f (fun w a n => a.rotateLeft (n % w)))
/-- LGET: element k of ra, zero-extended. -/
def execLget (c : Nat) (f : BitVec 23) (s : State) : Host.Outcome State Fault Refusal :=
  .next (runReg s c f (chkSel f) fun s => (selE s c f).setWidth 128)
/-- LPUT: element k of rd from element 0 of ra. -/
def execLput (c : Nat) (f : BitVec 23) (s : State) : Host.Outcome State Fault Refusal :=
  .next (runReg s c f (chkSel f) fun s =>
    ofElems (widthOf (eOf f)) fun i =>
      if i = fnOf f then elem (getV s c (raOf f)) (widthOf (eOf f)) 0 else elem (getV s c (rdOf f)) (widthOf (eOf f)) i)
/-- DUP: element k of ra in every element. -/
def execDup (c : Nat) (f : BitVec 23) (s : State) : Host.Outcome State Fault Refusal :=
  .next (runReg s c f (chkSel f) fun s => ofElems (widthOf (eOf f)) fun _ => selE s c f)
/-- BSWAP. -/
def execBswap (c : Nat) (f : BitVec 23) (s : State) : Host.Outcome State Fault Refusal :=
  .next (runE1 s c f swapBytes)
/-- CLZ. -/
def execClz (c : Nat) (f : BitVec 23) (s : State) : Host.Outcome State Fault Refusal :=
  .next (runE1 s c f clzE)
/-- POPC. -/
def execPopc (c : Nat) (f : BitVec 23) (s : State) : Host.Outcome State Fault Refusal :=
  .next (runE1 s c f popE)
/-- PERM. -/
def execPerm (c : Nat) (f : BitVec 23) (s : State) : Host.Outcome State Fault Refusal :=
  .next (runReg s c f (chkWhole f) fun s =>
    ofElems 8 fun i => permByte (getV s c (raOf f)) (elem (getV s c (rbOf f)) 8 i))

end Sys2Proof.Machine
end

