-- ==== Sys2Proof/Machine/Microcode.lean ====
section
/-! DEFINITION. Customer instructions: decode entries and microwords (08 R288 to R323). A command runs the instruction for a number of
microwords, or to its next YIELD, its DONE, its exception or a wait (notes/assumptions/20.md). -/
namespace Sys2Proof.Machine

/-- Fields of a microword, by their low bit and width (R295). -/
abbrev UW := BitVec 160
def uNext (w : UW) : Nat := fld w 147 13
def uSeq (w : UW) : Nat := fld w 144 3
def uCond (w : UW) : Nat := fld w 138 6
def uCpol (w : UW) : Bool := bit w 137
def uAsel (w : UW) : Nat := fld w 133 4
def uBsel (w : UW) : Nat := fld w 129 4
def uAlu (w : UW) : Nat := fld w 124 5
def uEw (w : UW) : Nat := fld w 121 3
def uDest (w : UW) : Nat := fld w 117 4
def uWlane (w : UW) : BitVec 4 := BitVec.ofNat 4 (fld w 113 4)
def uAuop (w : UW) : Nat := fld w 110 3
def uAusrc (w : UW) : Nat := fld w 107 3
def uMop (w : UW) : Nat := fld w 105 2
def uMw (w : UW) : Nat := fld w 103 2
def uMsx (w : UW) : Bool := bit w 102
def uLcop (w : UW) : Nat := fld w 100 2
def uSpec (w : UW) : Nat := fld w 96 4
def uRxop (w : UW) : Nat := fld w 94 2
def uAswp (w : UW) : Bool := bit w 93
def uRswp (w : UW) : Bool := bit w 92
def uCxm (w : UW) : Nat := fld w 64 2
def uConst (w : UW) : Nat := fld w 0 64

/-! ## Operands (R298, R299) -/

/-- CONST extended by CXM. -/
def constVec (w : UW) : Vec :=
  let k : BitVec 64 := BitVec.ofNat 64 (uConst w)
  match uCxm w with
  | 0 => k.setWidth 128
  | 1 => k.signExtend 128
  | 2 => k ++ k
  | _ => k ++ (0 : BitVec 64)

/-- IMM by the entry's class. -/
def immVec (cls : Nat) (f : BitVec 23) : Vec :=
  match cls with
  | 0 => BitVec.ofNat 128 (fnOf f)
  | 1 => imm15 f
  | 2 => (imm19 f).setWidth 128
  | 3 => imm15 f
  | 4 => ((f >>> 19).setWidth 4 ++ f.setWidth 15 : BitVec 19).signExtend 128
  | 5 => (imm19 f).signExtend 128
  | 6 => BitVec.ofNat 128 (selOf f)
  | _ => 0

/-- The whole instruction word of a customer instruction. -/
def irWord (m : Micro) : Nat := (0xE0 + m.op.toNat) * 2 ^ 23 + m.ir.toNat

/-- An operand. -/
def operand (s : State) (c : Nat) (m : Micro) (w : UW) (k : Nat) : Vec :=
  match k with
  | 0 => getV s c (rdOf m.ir)
  | 1 => getV s c (raOf m.ir)
  | 2 => getV s c (rbOf m.ir)
  | 3 => getV s c m.rx.toNat
  | 12 => m.mdr
  | 13 => constVec w
  | 14 => immVec m.cls m.ir
  | 15 => BitVec.ofNat 128 (irWord m)
  | _ => vget 0 m.t (k - 4)

/-! ## The ALU (R300, R301, R303) -/

/-- The operation works on elements, or on element 0, at the width of EW. -/
def aluE (op : Nat) : Bool :=
  op == 3 || op == 4 || decide (0x0A ≤ op ∧ op ≤ 0x1C)

/-- The E code that EW names. -/
def ewCode (m : Micro) (w : UW) : Nat := if uEw w = 7 then eOf m.ir else uEw w

/-- The element width of the ALU operation: that of EW for the operations marked E, the whole register for the others. -/
def aluWidth (m : Micro) (w : UW) : Nat := if aluE (uAlu w) then widthOf (ewCode m w) else 128

/-- Bytes reversed within each element of `n` bits. -/
def swapElems (n : Nat) (x : Vec) : Vec := ofElems n fun i => swapBytes n (elem x n i)

/-- The result before RSWP; `free` what a NOP leaves. -/
def aluResult (op e : Nat) (k : UW) (a b free : Vec) : Vec :=
  match op with
  | 0x00 => free
  | 0x01 => a
  | 0x02 => b
  | 0x03 => map2 e (fun _ x y => x + y) a b
  | 0x04 => map2 e (fun _ x y => x - y) a b
  | 0x05 => a &&& b
  | 0x06 => a ||| b
  | 0x07 => a ^^^ b
  | 0x08 => a &&& ~~~b
  | 0x09 => ~~~a
  | 0x0A => map2 e (fun w x y => x <<< (y.toNat % w)) a b
  | 0x0B => map2 e (fun w x y => x >>> (y.toNat % w)) a b
  | 0x0C => map2 e (fun w x y => x.sshiftRight (y.toNat % w)) a b
  | 0x0D => map2 e (fun w x y => x.rotateLeft (y.toNat % w)) a b
  | 0x0E => map2 e (fun _ x y => x * y) a b
  | 0x0F => map2 e mulHigh a b
  | 0x10 => map2 e minS a b
  | 0x11 => map2 e maxS a b
  | 0x12 => map2 e minU a b
  | 0x13 => map2 e maxU a b
  | 0x14 => map2 e addSat a b
  | 0x15 => map2 e subSat a b
  | 0x16 => cmp0 e (fun _ x y => x == y) a b
  | 0x17 => cmp0 e (fun _ x y => x.slt y) a b
  | 0x18 => cmp0 e (fun _ x y => x.ult y) a b
  | 0x19 => cmpAny e a b
  | 0x1A => map1 e clzE a
  | 0x1B => map1 e popE a
  | 0x1C => map1 e swapBytes a
  | 0x1D => ofElems 8 fun i => permByte a (elem b 8 i)
  | 0x1E => BitVec.ofNat 128 (rcrcByte (uConst k % 4) (a.toNat % 2 ^ 32) (b.setWidth 8))
  | _ => BitVec.ofNat 128 (add1c (a.toNat % 65536) (b.toNat % 65536))

/-- RC and RV of element 0. -/
def carryOf (op n : Nat) (a b : Vec) : Bool × Bool :=
  let x := elem a n 0; let y := elem b n 0
  let out (z : Int) : Bool := decide (z < -(2 ^ (n - 1) : Int)) || decide ((2 ^ (n - 1) : Int) ≤ z)
  match op with
  | 0x03 => (decide (2 ^ n ≤ x.toNat + y.toNat), out (x.toInt + y.toInt))
  | 0x04 => (decide (x.toNat < y.toNat), out (x.toInt - y.toInt))
  | 0x14 => (decide (2 ^ n ≤ x.toNat + y.toNat), false)
  | 0x15 => (decide (x.toNat < y.toNat), false)
  | _ => (false, false)

/-- The result flags RZ, RE0Z, RANYZ, RN, RC, RV, RLSB, bit 0 first. -/
def aluFlags (op n : Nat) (a b r : Vec) : BitVec 7 :=
  let cv := carryOf op n a b
  BitVec.ofNat 7 ((decide (r = 0)).toNat + 2 * (decide (elem r n 0 = 0)).toNat +
    4 * ((List.range (128 / n)).any fun i => decide (elem r n i = 0)).toNat + 8 * (elem r n 0).msb.toNat +
    16 * cv.1.toNat + 32 * cv.2.toNat + 64 * (bit r 0).toNat)

/-! ## Undefined microwords (R310) -/

/-- What makes a microword undefined by its fields alone; a reserved width does so whatever the operation (R301). -/
def uBad (m : Micro) (w : UW) : Bool :=
  fld w 66 26 != 0 || decide (4 < ewCode m w) || uDest w == 15 || decide (6 ≤ uAuop w) || uMop w == 3 ||
  decide (7 ≤ uSpec w) || (uSeq w == 2 && (uCond w == 0x2A || decide (0x2C ≤ uCond w))) ||
  (uAlu w == 0 && (uDest w != 0 || uWlane w != 0)) || (uSeq w == 5 && uLcop w != 0) ||
  (uAusrc w == 6 && decide (3 ≤ uAuop w)) || (uMop w == 1 && uDest w == 13) || (uAlu w == 0x1E && uConst w % 4 == 3) ||
  (uSeq w == 3 && m.stack.length == 4) || (uSeq w == 4 && m.stack.isEmpty)

/-! ## Ends (R313 to R315) -/

/-- The instruction ends with an exception: undo, then the exception. -/
def microEnd (s : State) (c : Nat) (m : Micro) (cause det : Nat) (addr : Word) (epc : BitVec 20) : State :=
  let s := modCtx s c fun x =>
    { x with v := m.undo.foldl (fun v e => vset v e.1 e.2) x.v, rpt := m.rptOld, micro := none, got := [] }
  raiseAt s c cause det addr epc

/-- Room for the held stores that will be staged. -/
def heldRoom (s : State) (c : Nat) (m : Micro) : Bool :=
  decide ((getCtx s c).tb.length + (m.held.filter fun x => isStaged c x.addr.toNat).length ≤ 32)
/-- Room in the store queue for those that will be posted. -/
def queueRoom (s : State) (c : Nat) (m : Micro) : Bool :=
  decide ((getCtx s c).stores.length + (m.held.filter fun x => !isStaged c x.addr.toNat).length ≤ 8)
/-- The posted ones find their place, their transactions and, on a slot-mode engine, their time (05 R200, 04 R171). -/
def heldGo (s : State) (c : Nat) (m : Micro) : Bool :=
  let l := m.held.filter fun x => !isStaged c x.addr.toNat
  queueRoom s c m && (l.isEmpty || txnFree s c l.length) && l.all fun x => slotTime s c (slotNs x.addr.toNat)
/-- The held stores are issued, in order. -/
def issueHeld (s : State) (c : Nat) (m : Micro) : State :=
  m.held.foldl (fun s x => modCtx s c fun y =>
    if isStaged c x.addr.toNat then { y with tb := y.tb ++ [x] }
    else { y with stores := y.stores ++ [{ x with due := slotDue s c x.addr.toNat }] }) s

/-- What a microword leads to. -/
inductive UStep where
  /-- the next microword, with the microstate -/
  | cont (m : Micro)
  /-- a YIELD was passed; `false` where something waits to be taken (R315) -/
  | pass (m : Micro) (go : Bool)
  /-- SEQ DONE: what is held back is issued, and a data breakpoint may follow -/
  | ends (m : Micro)
  /-- an exception -/
  | exc (cause det : Nat) (addr : Word) (epc : BitVec 20)
  /-- a read of a lost block ends the activation -/
  | lost
  /-- its read waits and it is performed again: the state as it stands -/
  | stall
  /-- it waits to issue what the microstate holds back, and is performed again -/
  | hold (m : Micro)
  deriving DecidableEq, Repr

/-! ## One microword -/

/-- Bytes of a read with the held stores laid over them (R312). -/
def heldOver (l : List Store) (a n v : Nat) : Nat :=
  leVal ((List.range n).map fun i =>
    l.foldl (fun b x => if x.addr.toNat ≤ a + i && a + i < x.addr.toNat + x.size then BitVec.ofNat 8 (x.data.toNat >>> (8 * (a + i - x.addr.toNat))) else b)
      (BitVec.ofNat 8 (v >>> (8 * i))))

/-- MAR before the access (R304). -/
def marBefore (s : State) (c : Nat) (m : Micro) (w : UW) (r : Vec) : Word :=
  let src : Word := match uAusrc w with
    | 0 => (getV s c (raOf m.ir)).setWidth 32
    | 1 => (getV s c (rbOf m.ir)).setWidth 32
    | 2 => (getV s c m.rx.toNat).setWidth 32
    | 3 => (vget 0 m.t 0).setWidth 32
    | 4 => (vget 0 m.t 1).setWidth 32
    | 5 => BitVec.ofNat 32 (uConst w)
    | 6 => r.setWidth 32
    | _ => m.mdr.setWidth 32
  match uAuop w with
  | 1 => src
  | 2 => m.mar + src
  | 5 => src + disp15 m.ir
  | _ => m.mar

/-- The memory access of a microword (R305): the state, the microstate, and an end where it has one. -/
def uAccess (s : State) (c : Nat) (m : Micro) (w : UW) : State × Micro × Option UStep :=
  let a := m.mar.toNat
  let n := 2 ^ uMw w
  match uMop w with
  | 1 =>
    match ctxReadAs s c { ctxAcc s c with effect := false } a n with
    | (s, .val v) =>
      let v := heldOver m.held a n v
      let r := watchData s c true false a n v
      (modCtx r.1 c fun x => { x with got := [] },
        { m with mdr := if uMsx w then sextB n v else zext v, brk := m.brk.or r.2 }, none)
    | (s, .exc d) => (s, m, some (.exc 1 d m.mar (getCtx s c).pc))
    | (s, .lost) => (s, m, some .lost)
    | (s, .stalled) => (s, m, some .stall)
  | 2 =>
    let v := m.mdr.toNat % 2 ^ (8 * n)
    match repCheck s c a n v with
    | (s, 0) =>
      if m.held.length = 8 then (s, m, some (.exc 2 6 0 (getCtx s c).pc))
      else
        let r := watchData s c false true a n v
        (r.1, { m with held := m.held ++ [{ addr := m.mar, size := n, data := BitVec.ofNat 64 v }], brk := m.brk.or r.2 }, none)
    | (s, d) => (s, m, some (.exc 1 d m.mar (getCtx s c).pc))
  | _ => (s, m, none)

/-- A 128-bit destination with the lanes of WLANE written. -/
def lanes (old new : Vec) (l : BitVec 4) : Vec := ofElems 32 fun i => if l.getLsbD i then elem new 32 i else elem old 32 i

/-- DEST (R302), with the undo log (R312); `none` where a fifth register would be recorded. -/
def uWrite (s : State) (c : Nat) (m : Micro) (w : UW) (rx : Nat) (r : Vec) : Option (State × Micro) :=
  let v (n : Nat) : Option (State × Micro) :=
    if uWlane w = 0 then some (s, m)
    else
      let old := getV s c n
      let s' := setV s c n (lanes old r (uWlane w))
      if m.undo.any fun e => e.1 == n then some (s', m)
      else if m.undo.length = 4 then none else some (s', { m with undo := m.undo ++ [(n, old)] })
  match uDest w with
  | 0 => some (s, m)
  | 1 => v (rdOf m.ir)
  | 2 => v (raOf m.ir)
  | 3 => v (rbOf m.ir)
  | 4 => v rx
  | 13 => some (s, { m with mdr := lanes m.mdr r (uWlane w) })
  | 14 => some (s, { m with npc := r.setWidth 20 &&& 0xFFFFC })
  | k => some (s, { m with t := vset m.t (k - 5) (lanes (vget 0 m.t (k - 5)) r (uWlane w)) })

/-- The condition multiplexer (R309). -/
def uTest (s : State) (c : Nat) (m : Micro) (k : Nat) : Bool :=
  let x := getCtx s c
  if k = 0 then true
  else if k ≤ 7 then bit m.flags (k - 1)
  else if 0x10 ≤ k ∧ k ≤ 0x1A then bit m.ir (k - 0x10)
  else match k with
    | 0x08 => decide (m.lc = 0)
    | 0x09 => decide (m.lc = 1)
    | 0x0A => decide (m.mar.toNat % 8 = 0)
    | 0x0B => decide (m.mar.toNat % 64 = 0)
    | 0x0C => decide (m.mar.toNat / 0x1000000 = c / 256)
    | 0x0D => m.stack.isEmpty
    | 0x0E => decide (m.stack.length = 4)
    | 0x0F => decide (m.held.length = 8)
    | 0x1B => decide (rdOf m.ir = 0)
    | 0x1C => decide (raOf m.ir = 0)
    | 0x1D => decide (rbOf m.ir = 0)
    | 0x1E => decide (rdOf m.ir = raOf m.ir)
    | 0x1F => decide (m.rx = 15)
    | 0x20 => x.rpt
    | 0x21 => x.ie
    | 0x22 => x.exl
    | 0x23 => decide (x.priv = 0)
    | 0x24 => decide (x.priv.toNat ≤ 1)
    | 0x25 => decide (x.tb.length = 32)
    | 0x26 => !x.tb.isEmpty
    | 0x27 => isHard s c
    | 0x28 => (insideWinner s c).isSome
    | 0x29 => decide (x.haltReq ≠ .none) || x.stepping
    | _ => decide (m.undo.length = 4)

/-- The successor by SEQ (R297), with the microstack; `none` for DONE. -/
def uSucc (s : State) (c : Nat) (m : Micro) (w : UW) (r : Vec) : Option Nat × List Nat :=
  let here := m.upc
  match uSeq w with
  | 0 => (some (here + 1), m.stack)
  | 1 => (some (uNext w), m.stack)
  | 2 => (some (if uTest s c m (uCond w) != uCpol w then uNext w else here + 1), m.stack)
  | 3 => (some (uNext w), (here + 1) :: m.stack)
  | 4 => (some (m.stack.headD 0), m.stack.tail)
  | 5 => (some (if m.lc ≠ 0 then uNext w else here + 1), m.stack)
  | 7 => (some ((uNext w &&& 0x1FF0) + r.toNat % 16), m.stack)
  | _ => (none, m.stack)

/-- MAR, LC and RX after the microword's AUOP 3 or 4, LCOP and RXOP (R304, R306), from its start `m0` and its result. -/
def uStepped (m m0 : Micro) (w : UW) (r : Vec) : Micro :=
  let step : Word := BitVec.ofNat 32 (2 ^ uMw w)
  { m with
    mar := match uAuop w with | 3 => m.mar + step | 4 => m.mar - step | _ => m.mar
    lc := match uLcop w with
      | 1 => BitVec.ofNat 16 (uConst w) | 2 => r.setWidth 16 | 3 => m0.lc - 1
      | _ => if uSeq w = 5 then m0.lc - 1 else m0.lc
    rx := match uRxop w with | 1 => BitVec.ofNat 4 (rdOf m0.ir) | 2 => m0.rx + 1 | 3 => r.setWidth 4 | _ => m0.rx }

/-- The microword's successor lies outside the writable store (R310): by the flags, MAR, LC, undo log, held stores, SW.RPT and traverse
buffer that it would leave. -/
def uAstray (s : State) (c : Nat) (m0 : Micro) (w : UW) (n : Nat) (a b r : Vec) : Bool :=
  let m := { m0 with mar := marBefore s c m0 w r, flags := if uAlu w = 0 then m0.flags else aluFlags (uAlu w) n a b r }
  let m := uStepped m m0 w r
  let reg := match uDest w with
    | 1 => some (rdOf m.ir) | 2 => some (raOf m.ir) | 3 => some (rbOf m.ir) | 4 => some m0.rx.toNat | _ => none
  let undo := match reg with
    | some k => if uWlane w = 0 || m.undo.any (fun e => e.1 == k) then m.undo else m.undo ++ [(k, 0)]
    | none => m.undo
  let held := if uMop w = 2 then m.held ++ [{ addr := m.mar, size := 0, data := 0 }] else m.held
  let m := if uSpec w = 1 then { m with undo := [], held := [] } else { m with undo, held := if uSpec w = 4 then [] else held }
  let rpt := if uSpec w = 1 ∨ uSpec w = 2 then true else if uSpec w = 3 then false else (getCtx s c).rpt
  match (uSucc (modCtx (if uSpec w = 1 ∨ uSpec w = 4 then issueHeld s c { m with held } else s) c fun x => { x with rpt := rpt }) c m w r).1 with
  | some k => decide (k < 0x1800 ∨ 0x1FFF < k)
  | none => false

/-- SPEC (R307): the state and the microstate, whether a YIELD was passed, and an end where it has one. -/
def uSpecial (s : State) (c : Nat) (m : Micro) (w : UW) : State × Micro × Bool × Option UStep :=
  let hold (k : State × Micro × Bool × Option UStep) : State × Micro × Bool × Option UStep :=
    if !heldRoom s c m then (s, m, false, some (.exc 5 0 0 (getCtx s c).pc))
    else if !heldGo s c m then (s, m, false, some (.hold m))
    else k
  match uSpec w with
  | 1 => hold (modCtx (issueHeld s c m) c fun x => { x with rpt := true },
               { m with held := [], undo := [], rptOld := true }, true, none)
  | 2 => (modCtx s c fun x => { x with rpt := true }, m, false, none)
  | 3 => (modCtx s c fun x => { x with rpt := false }, m, false, none)
  | 4 => hold (fence (issueHeld s c m) c, { m with held := [] }, false, none)
  | 5 => (s, m, false, some (.exc 2 8 0 (getCtx s c).pc))
  | 6 => (s, m, false, some (.exc 6 (0x10000 + uConst w % 2048) 0 m.npc))
  | _ => (s, m, false, none)

/-- Something waits that a YIELD takes: an event, a halt, a step, a data breakpoint. -/
def yieldStops (s : State) (c : Nat) (m : Micro) : Bool :=
  (insideWinner s c).isSome || decide ((getCtx s c).haltReq ≠ .none) || (getCtx s c).stepping || m.brk.isSome

/-- A microword in the order of R308. -/
def uExec (s : State) (c : Nat) (m0 : Micro) (w : UW) : State × UStep :=
  let pc := (getCtx s c).pc
  let e := ewCode m0 w
  let n := aluWidth m0 w
  let a0 := operand s c m0 w (uAsel w)
  let a := if uAswp w then swapElems (widthOf e) a0 else a0
  let b := operand s c m0 w (uBsel w)
  let free : Vec := (Config.freeWord s.fresh).setWidth 128
  let s1 := if uAlu w = 0 then { s with fresh := s.fresh + 1 } else s
  let r0 := aluResult (uAlu w) e w a b free
  let r := if uRswp w && uAlu w ≠ 0 then swapElems (widthOf e) r0 else r0
  if uAstray s c m0 w n a b r then (s, .exc 2 5 0 pc)
  else match uAccess s1 c { m0 with mar := marBefore s c m0 w r } w with
  | (s2, _, some x) => (s2, x)
  | (s2, m, none) =>
    let m := if uAlu w = 0 then m else { m with flags := aluFlags (uAlu w) n a b r }
    match (if uAlu w = 0 then some (s2, m) else uWrite s2 c m w m0.rx.toNat r) with
    | none => (s, .exc 2 6 0 pc)
    | some (s3, m) =>
      match uSpecial s3 c (uStepped m m0 w r) w with
      | (_, _, _, some (.exc k d ad epc)) => (s3, .exc k d ad epc)
      | (_, _, _, some x) => (s, x)
      | (s4, m, yielded, none) =>
        let m := { m with cnt := if yielded then 0 else m.cnt + 1 }
        match uSucc s4 c m w r with
        | (none, _) => (s4, if yielded && yieldStops s4 c m then .pass m false else .ends m)
        | (some k, st) =>
          let m := { m with upc := k, stack := st }
          if yielded then (s4, .pass m (!yieldStops s4 c m))
          else if m.cnt = 65536 then (s4, .exc 2 7 0 pc)
          else (s4, .cont m)

/-! ## The instruction -/

/-- The quad that holds the engine of context `c`. -/
def quadOf (s : State) (c : Nat) : Nat := engOf s c / 4

/-- The instruction waits inside a microword. -/
def microStall (s : State) (c : Nat) (m : Micro) (wt : Wait) : State := stallIn (modCtx s c fun x => { x with micro := some m }) c wt

/-- The microword that began with microstate `m` waits to issue what is held back: for its place in the queue, for transactions, or for the
next slot. -/
def microHold (s : State) (c : Nat) (m held : Micro) : State :=
  if !queueRoom s c held then microStall (countCtx s c 0x06) c m .storeQueue
  else if (held.held.filter fun x => !isStaged c x.addr.toNat).all fun x => slotTime s c (slotNs x.addr.toNat) then microStall s c m .transaction
  else slotWait (modCtx s c fun x => { x with micro := some m }) c

/-- SEQ DONE (R314). -/
def microOver (s : State) (c : Nat) (m pre : Micro) (old : State) : State :=
  if !heldRoom s c m then microEnd s c m 5 0 0 (getCtx s c).pc
  else if !heldGo s c m then microHold old c pre m
  else
    breakAfter (finish (modCtx (issueHeld s c m) c fun x => { x with rpt := false, micro := none, pc := m.npc }) c) c m.brk

/-- An end of the instruction by an exception of a microword that began with microstate `m`, on the state that it left. -/
def microExc (s : State) (c : Nat) (m : Micro) (cause det : Nat) (addr : Word) (epc : BitVec 20) (old : State) : State :=
  microEnd (modCtx s c fun x => { x with v := (getCtx old c).v }) c m cause det addr epc

/-- Microwords until the next YIELD, DONE, exception or wait, at most `k`: there the engine may switch away at a microword boundary, and the
microstate waits in the context (R318). -/
def microRun (c : Nat) : Nat → State → Micro → State
  | 0, s, m => reschedOf (modCtx s c fun x => { x with micro := some m, mid := true }) c
  | k + 1, s, m =>
    let t := c / 256; let q := quadOf s c
    let i := m.upc - 0x1800
    let b := wsBlock q (i / 3)
    if isBad s t (posOf b) then microStall (askResend s t b) c m (.resend b)
    else
      let u := getUWord s (uwKey t q i)
      if u.tag.toNat != ctxParcel s c then microEnd s c m 1 6 0 (getCtx s c).pc
      else if uBad m u.w then microEnd s c m 2 5 0 (getCtx s c).pc
      else
        match uExec s c m u.w with
        | (s', .cont m') => microRun c k s' m'
        | (s', .pass m' true) => reschedOf (modCtx s' c fun x => { x with micro := some m', mid := false }) c
        | (s', .pass m' false) =>
          breakAfter (reschedOf (stepEnds (modCtx s' c fun x => { x with micro := none, mid := false, got := [] }) c) c) c m'.brk
        | (s', .ends m') => microOver s' c m' m s
        | (s', .exc cause det addr epc) => microExc s' c m cause det addr epc s
        | (s', .lost) => readLost (modCtx s' c fun x => { x with micro := none }) c
        | (s', .stall) => modCtx s' c fun x => { x with micro := some m }
        | (_, .hold m') => microHold s c m m'

/-- Check 2 of R246 for a customer opcode (R321, R322; 04 R155). -/
def decUsable (s : State) (c : Nat) (w : Word) : Bool :=
  bit w 31 && fld w 29 2 != 3 && fld w 25 4 == ctxParcel s c && decide ((getCtx s c).priv.toNat ≤ fld w 29 2)

/-- Check 3 for a customer opcode: the fields that its class requires to be 0, and E (06 R224, R226, R250). -/
def decFields (cls : Nat) (f : BitVec 23) : Bool := if cls = 0 then eOk f else if cls = 6 then chkSys f else true

/-- The microstate at the start of an instruction (R296). -/
def microStart (s : State) (c : Nat) (op : BitVec 5) (f : BitVec 23) (w : Word) : Micro :=
  { ir := f, op := op, npc := (getCtx s c).pc + 4, upc := fld w 0 13, rptOld := (getCtx s c).rpt, cls := fld w 13 3 }

/-- A customer instruction: begun, or gone on with where it stands, for at most `f.upTo` microwords (at least one) before the outside
interrupts. -/
def execCustomerInstruction (c : Nat) (op : BitVec 5) (f : CustomerWord) (s : State) : Host.Outcome State Fault Refusal :=
  .next (
    match (getCtx s c).micro with
    | some m => if mayRun s c then microRun c (max 1 (min f.upTo 65536)) s m else s
    | none => runInsn s c (getCtx s c).rpt true fun s =>
        let t := c / 256; let q := quadOf s c
        let b := wsBlock q (683 + op.toNat / 16)
        let w := (getDec s (decKey t q op.toNat)).w
        if isBad s t (posOf b) then stallIn (askResend s t b) c (.resend b)
        else if !decUsable s c w then raise_ s c 2 1
        else if !decFields (fld w 13 3) f.bits then raise_ s c 2 2
        else microRun c (max 1 (min f.upTo 65536)) s (microStart s c op f.bits w))

end Sys2Proof.Machine
end

