-- ==== Sys2Proof/Machine/Paired.lean ====
section
/-! DEFINITION. Paired short operations (06 R236 to R245). -/
namespace Sys2Proof.Machine

/-- A slot's fields (R236, R237). -/
structure Slot where
  op : Nat
  rd : Nat
  rs : Nat
  lane : Nat
  imm : BitVec 6

/-- The slot in 15 bits. -/
def slotOf (w : BitVec 15) : Slot :=
  { op := fld w 10 5, rd := fld w 6 4, rs := fld w 2 4, lane := fld w 0 2, imm := w.setWidth 6 }

/-- Slot A of the word's bits 30:0, and slot B. -/
def slotA (w : BitVec 31) : Slot := slotOf ((w >>> 16).setWidth 15)
def slotB (w : BitVec 31) : Slot := slotOf (w.setWidth 15)

/-- The operation is in immediate form (R239). -/
def Slot.immForm (x : Slot) : Bool := [0x00, 0x02, 0x04, 0x09, 0x0C, 0x0D, 0x0E, 0x13, 0x14, 0x1C, 0x1D].contains x.op
/-- It reads its rd. -/
def Slot.readsRd (x : Slot) : Bool :=
  decide (3 ≤ x.op ∧ x.op ≤ 0x14) || x.op == 0x19 || decide (0x1B ≤ x.op ∧ x.op ≤ 0x1D) || x.op == 0x1F
/-- The registers it reads. -/
def Slot.reads (x : Slot) (r : Nat) : Bool := (x.readsRd && x.rd == r) || (!x.immForm && x.rs == r)
/-- It writes its rd. -/
def Slot.writes (x : Slot) : Bool := !(x.op == 0 || x.op == 0x19 || decide (0x1B ≤ x.op ∧ x.op ≤ 0x1D))
/-- It is a memory operation. -/
def Slot.mem (x : Slot) : Bool := decide (0x18 ≤ x.op ∧ x.op ≤ 0x1B)
/-- It is a branch. -/
def Slot.branch (x : Slot) : Bool := x.op == 0x1C || x.op == 0x1D
/-- A NOP has zero fields (R239). -/
def Slot.ok (x : Slot) : Bool := x.op != 0 || (x.rd == 0 && x.imm == 0)

/-- Check 3 of R246 for a paired word. -/
def pairOk (w : BitVec 31) : Bool := !bit w 15 && (slotA w).ok && (slotB w).ok

/-- The lowest code of a broken pairing rule (R243, R244); 0 where none is. -/
def pairRule (a b : Slot) : Nat :=
  if a.writes && b.writes && a.rd == b.rd then 1
  else if a.writes && b.reads a.rd then 2
  else if a.mem && b.mem then 3
  else if a.branch then 4 else 0

/-- A register with lane `l` replaced (R238). -/
def setLane (x : Vec) (l : Nat) (v : Word) : Vec := setFld x (32 * l) 32 v.toNat

/-- What a slot writes into its rd (R239), given rd and rs as they stood before the pair and, for a load, its datum. -/
def Slot.result (x : Slot) (rd rs : Vec) (loaded : Nat) : Vec :=
  let a := elem rd 32 x.lane
  let b := elem rs 32 x.lane
  let a0 := elem rd 32 0
  let z : Word := x.imm.setWidth 32
  let i : Word := x.imm.signExtend 32
  match x.op with
  | 0x01 => setLane rd x.lane b
  | 0x02 => setLane rd 0 z
  | 0x03 => setLane rd x.lane (a + b)
  | 0x04 => setLane rd 0 (a0 + i)
  | 0x05 => setLane rd x.lane (a - b)
  | 0x06 => setLane rd x.lane (a &&& b)
  | 0x07 => setLane rd x.lane (a ||| b)
  | 0x08 => setLane rd x.lane (a ^^^ b)
  | 0x09 => setLane rd 0 (a0 &&& z)
  | 0x0A => setLane rd x.lane (a <<< (b.toNat % 32))
  | 0x0B => setLane rd x.lane (a >>> (b.toNat % 32))
  | 0x0C => setLane rd 0 (a0 <<< x.imm.toNat)
  | 0x0D => setLane rd 0 (a0 >>> x.imm.toNat)
  | 0x0E => setLane rd 0 (a0.sshiftRight x.imm.toNat)
  | 0x0F => flag (a == b)
  | 0x10 => flag (a != b)
  | 0x11 => flag (a.slt b)
  | 0x12 => flag (a.ult b)
  | 0x13 => flag (a0 == z)
  | 0x14 => flag (a0.slt i)
  | 0x15 => setLane rd x.lane (~~~b)
  | 0x16 => ofElems 32 fun _ => b
  | 0x17 => b.setWidth 128
  | 0x18 => setLane rd x.lane (BitVec.ofNat 32 loaded)
  | 0x1A => setLane rd x.lane (BitVec.ofNat 32 (loaded % 256))
  | 0x1E => setLane rd x.lane (BitVec.ofNat 32 ((List.range 32).takeWhile fun k => !b.getLsbD (31 - k)).length)
  | 0x1F => setLane rd x.lane (if a.ult b then b else a)
  | _ => rd

/-- The value a slot writes, from the registers of `s`. -/
def Slot.value (x : Slot) (s : State) (c loaded : Nat) : Vec := x.result (getV s c x.rd) (getV s c x.rs) loaded

/-- One slot's result written. -/
def putSlot (s : State) (c : Nat) (x : Slot) (w : Vec) : State := if x.writes then setV s c x.rd w else s

/-- Is the branch of slot B taken (R235)? -/
def Slot.taken (x : Slot) (s : State) (c : Nat) : Bool :=
  (x.op == 0x1C && isZero (getV s c x.rd)) || (x.op == 0x1D && !isZero (getV s c x.rd))

/-- Both results from the registers before the pair, written together; then the program counter (R240, R241). -/
def pairEndAll (s : State) (c : Nat) (a b : Slot) (loaded : Nat) : State :=
  let s' := putSlot (putSlot s c a (a.value s c loaded)) c b (b.value s c loaded)
  if b.taken s c then jumpTo s' c ((getCtx s c).pc + 4 + (b.imm.signExtend 20) <<< 2) else next4 s' c

/-- A memory slot's address: lane L of rs. -/
def Slot.addr (x : Slot) (s : State) (c : Nat) : Nat := (elem (getV s c x.rs) 32 x.lane).toNat
/-- Its width in bytes. -/
def Slot.size (x : Slot) : Nat := if x.op = 0x18 ∨ x.op = 0x19 then 4 else 1

/-- The pair's execution, its memory slot first (R241, R242). -/
def runPair (s : State) (c : Nat) (a b : Slot) : State :=
  match [a, b].find? Slot.mem with
  | none => pairEndAll s c a b 0
  | some m =>
    if m.op = 0x18 || m.op = 0x1A then
      let ad := m.addr s c
      loadThen s c ad m.size none fun s v w => breakAfter (pairEndAll s c a b v) c w
    else
      storeThen s c (m.addr s c) m.size ((elem (getV s c m.rd) 32 m.lane).toNat % 2 ^ (8 * m.size)) none fun s w =>
        breakAfter (pairEndAll s c a b 0) c w

/-- A paired word (R240 to R246). -/
def execPairedWord (c : Nat) (w : BitVec 31) (s : State) : Host.Outcome State Fault Refusal :=
  .next (runInsn s c false (pairOk w) fun s =>
    match pairRule (slotA w) (slotB w) with
    | 0 => runPair s c (slotA w) (slotB w)
    | k => raise_ s c 4 k)

end Sys2Proof.Machine
end

