-- ==== Sys2Proof/Machine/PinCmds.lean ====
section
/-! DEFINITION. Events of the pin sequencers, timers and PWM pairs (16, 17). -/
namespace Sys2Proof.Machine

/-- SEQUENCER_BOUNDARY (16 R553 to R557): `pins` the filtered levels of the GP pins of the tile. -/
def execSequencerBoundary (n : Nat) (pins : BitVec 64) (s : State) : Host.Outcome State Fault Refusal := .next (seqBoundary s n pins)

/-- SEQUENCER_STALL_LIMIT (16 R563). -/
def execSequencerStallLimit (n : Nat) (s : State) : Host.Outcome State Fault Refusal := .next (seqSlim s n)

/-- TIMER_COMPARE_MATCH (17 R574, R575). -/
def execTimerCompareMatch (n : Nat) (s : State) : Host.Outcome State Fault Refusal := .next (cmpDue s n)

/-- CAPTURE_EDGE (17 R577, R578). -/
def execCaptureEdge (n : Nat) (rising : Bool) (s : State) : Host.Outcome State Fault Refusal := .next (capEdge s n rising)

/-- BLANKING_WINDOW_END (17 R580). -/
def execBlankingWindowEnd (n : Nat) (s : State) : Host.Outcome State Fault Refusal := .next (blankEnd s n)

/-- CARRIER_ZERO (17 R587, R590 to R592). -/
def execCarrierZero (p : Nat) (s : State) : Host.Outcome State Fault Refusal := .next (pwmZero s p)

/-- CARRIER_TOP (17 R586, R592). -/
def execCarrierTop (p : Nat) (s : State) : Host.Outcome State Fault Refusal := .next (pwmTop s p)

/-- REFERENCE_CHANGE (17 R586). -/
def execReferenceChange (p : Nat) (s : State) : Host.Outcome State Fault Refusal := .next (pwmRef s p)

/-- DEAD_TIME_END (17 R588): `dt` the base ticks until the comparator showed the other output off. -/
def execDeadTimeEnd (p : Nat) (dt : Nat) (s : State) : Host.Outcome State Fault Refusal := .next (pwmTurnOn s p dt)

/-- TRIP (17 R593): the trip input through its filter. -/
def execTrip (p : Nat) (active : Bool) (s : State) : Host.Outcome State Fault Refusal :=
  .next (if p < s.nTiles * 8 then tripInput s p active else s)

end Sys2Proof.Machine
end

