-- ==== Sys2Proof/Machine/PortCmds.lean ====
section
/-! DEFINITION. Events of the frame ports and the fly-through pairs (11, 12). -/
namespace Sys2Proof.Machine

/-- FRAME_RECEIVE_START (11 R402 to R405): the first destination byte of the frame `bytes` arrives. -/
def execFrameReceiveStart (p : Nat) (bytes : List Byte) (s : State) : Host.Outcome State Fault Refusal := .next (rxStart s p bytes)

/-- FRAME_RECEIVE_END (11 R402, R406): `rxer` where the interface showed an error. -/
def execFrameReceiveEnd (p : Nat) (rxer : Bool) (s : State) : Host.Outcome State Fault Refusal := .next (rxEnd s p rxer)

/-- JABBER (11 R403). -/
def execJabber (p : Nat) (s : State) : Host.Outcome State Fault Refusal := .next (rxJabber s p)

/-- TRANSMIT_FRAME_START (11 R416). -/
def execTransmitFrameStart (p : Nat) (s : State) : Host.Outcome State Fault Refusal := .next (txStart s p)

/-- TRANSMIT_FRAME_END (11 R416). -/
def execTransmitFrameEnd (p : Nat) (s : State) : Host.Outcome State Fault Refusal := .next (txEnd s p)

/-- LINK_UP (11 R399): the PHY reports full duplex at a speed. -/
def execLinkUp (p : Nat) (speed : BitVec 2) (s : State) : Host.Outcome State Fault Refusal :=
  .next (if p < s.nTiles * 8 then phyUp s p speed else s)

/-- LINK_DOWN (11 R399, R422): the PHY reports the link down; `cause` 1 half duplex, 2 loss of synchronisation. -/
def execLinkDown (p : Nat) (cause : BitVec 2) (s : State) : Host.Outcome State Fault Refusal :=
  .next (if p < s.nTiles * 8 then phyDown s p cause else s)

/-- PAUSE_EXPIRED (11 R419). -/
def execPauseExpired (p q : Nat) (s : State) : Host.Outcome State Fault Refusal := .next (pauseOver s p q)

/-- PAUSE_REFRESH_DUE (11 R420). -/
def execPauseRefreshDue (p : Nat) (s : State) : Host.Outcome State Fault Refusal := .next (refreshDue s p)

/-- PAUSE_WATCHDOG (11 R421). -/
def execPauseWatchdog (p q : Nat) (s : State) : Host.Outcome State Fault Refusal := .next (pauseWd s p q)

/-- RATE_WINDOW_END (11 R411). -/
def execRateWindowEnd (t : Nat) (s : State) : Host.Outcome State Fault Refusal := .next (if t < s.nTiles then rateEnd s t else s)

/-- CHUNK_COMPLETE (12 R437). -/
def execChunkComplete (k : Nat) (s : State) : Host.Outcome State Fault Refusal := .next (chunkDone s k)

/-- CHUNK_RELEASE (12 R437, R441, R444). -/
def execChunkRelease (k : Nat) (s : State) : Host.Outcome State Fault Refusal := .next (chunkOut s k)

/-- SCHUSS_EGRESS_START (12 R438). -/
def execSchussEgressStart (k : Nat) (s : State) : Host.Outcome State Fault Refusal := .next (egressStart s k)

end Sys2Proof.Machine
end

