-- ==== Sys2Proof/Machine/PowerCmds.lean ====
section
/-! DEFINITION. Events of the power controllers (19) and of the counter snapshots (18). -/
namespace Sys2Proof.Machine

/-- REMOTE_WAKE_REQUEST (19 R640). -/
def execRemoteWakeRequest (t : Nat) (s : State) : Host.Outcome State Fault Refusal := .next (remoteWake s t)

/-- POWER_ACKNOWLEDGE (19 R634, R641). -/
def execPowerAcknowledge (t d : Nat) (level : Bool) (s : State) : Host.Outcome State Fault Refusal :=
  .next (if t < s.nTiles then powerAck s t d level else s)

/-- POWER_ACK_TIMEOUT (19 R635). -/
def execPowerAckTimeout (t d : Nat) (s : State) : Host.Outcome State Fault Refusal := .next (ackTimeout s t d)

/-- WAKE_COMPLETE (19 R641 to R644): `ok` where every block of a quad was answered by a good copy. -/
def execWakeComplete (t d : Nat) (ok : Bool) (s : State) : Host.Outcome State Fault Refusal := .next (wakeDone s t d ok)

/-- SNAPSHOT_DUE (18 R627). -/
def execSnapshotDue (t p : Nat) (s : State) : Host.Outcome State Fault Refusal := .next (snapDue s t p)

end Sys2Proof.Machine
end

