-- ==== Sys2Proof/Machine/RegCmds.lean ====
section
/-! DEFINITION. The commands that are one read or one write of a register. A number beyond the register block leaves the state as it is (notes/assumptions/2.md). -/
namespace Sys2Proof.Machine

/-- FN_CTL of function `f` with DLIM and SLOT as they stand (03 R126) and the bits `b`. -/
def fnCtlWord (s : State) (f b : Nat) : Word :=
  fields [(8, 8, (getFn s f).dlim.toNat), (4, 1, (getFn s f).slot.toNat), (0, 4, b)]

/-- Cluster address of a register of context `c`'s window (05 R195). -/
def winA (c off : Nat) : Nat := ta (c / 256) (0x5D0000 + c % 256 * 0x100 + off)

/-- Cluster address of a register of mailbox `m` (15 R545). -/
def mbxA (m off : Nat) : Nat := ta (m / 32) (0x520000 + m % 32 * 0x80 + off)

/-- The offset of a program, loop or start register of a sequencer (16 R562). -/
def progReg (off : BitVec 8) : Bool :=
  off == 0x14 || off == 0x34 || off == 0x38 || (decide (0x40 ≤ off.toNat) && decide (off.toNat < 0xC0) && off.toNat % 4 == 0)

/-- REGISTER_WRITE (00 R12, R14, R19 to R22): each field by its access code, after the rights check. -/
def execRegisterWrite (ag : Agent) (addr : Word) (v : Word) (s : State) : Host.Outcome State Fault Refusal :=
  .next (agentWrite s ag addr.toNat v)

/-- READ_CLEAR (00 R16): the value, and the bits of RC fields returned as 1 cleared. -/
def execReadClear (ag : Agent) (addr : Word) (s : State) : Host.Outcome State Fault Refusal := .next (agentRead s ag addr.toNat)

/-- TMR_DADJ_WRITE (02 R67, R68). -/
def execTmrDadjWrite (ag : Agent) (t : Nat) (v : Word) (s : State) : Host.Outcome State Fault Refusal :=
  .next (agentWrite s ag (ta t 0x55F010) v)

/-- PACE_CTL_WRITE (02 R76). -/
def execPaceCtlWrite (ag : Agent) (t : Nat) (v : Word) (s : State) : Host.Outcome State Fault Refusal :=
  .next (agentWrite s ag (ta t 0x55F020) v)

/-- RSTMIN (02 R81): TMR_PACE_CTL written with RSTMIN 1 and its other fields as they stand. -/
def execRstmin (ag : Agent) (t : Nat) (s : State) : Host.Outcome State Fault Refusal :=
  .next (agentWrite s ag (ta t 0x55F020) ((rg s (ta t 0x55F020) &&& 0x1F3FF) ||| 0x20000))

/-- NVM_PORT_ACQUIRE (03 R94): a read of CFG_NVM_OWN. -/
def execNvmPortAcquire (ag : Agent) (s : State) : Host.Outcome State Fault Refusal := .next (agentRead s ag (0x500020))

/-- NVM_PORT_RELEASE (03 R94): CFG_NVM_OWN.REL written 1. -/
def execNvmPortRelease (ag : Agent) (s : State) : Host.Outcome State Fault Refusal := .next (agentWrite s ag (0x500020) 1)

/-- NVM_READ_PAGE (03 R95): CFG_NVM_CMD with OP 0b01. -/
def execNvmReadPage (ag : Agent) (gran : BitVec 14) (s : State) : Host.Outcome State Fault Refusal :=
  .next (agentWrite s ag (0x500028) (fields [(30, 2, 1), (0, 14, gran.toNat)]))

/-- NVM_PROGRAM_PAGE (03 R95): CFG_NVM_CMD with OP 0b10. -/
def execNvmProgramPage (ag : Agent) (gran : BitVec 14) (s : State) : Host.Outcome State Fault Refusal :=
  .next (agentWrite s ag (0x500028) (fields [(30, 2, 2), (0, 14, gran.toNat)]))

/-- NVM_ERASE_SECTOR (03 R95): CFG_NVM_CMD with OP 0b11. -/
def execNvmEraseSector (ag : Agent) (gran : BitVec 14) (s : State) : Host.Outcome State Fault Refusal :=
  .next (agentWrite s ag (0x500028) (fields [(30, 2, 3), (0, 14, gran.toNat)]))

/-- FUNCTION_ENABLE (03 R112, R119): FN_CTL.EN written 1, DLIM and SLOT as they stand. -/
def execFunctionEnable (ag : Agent) (f : Nat) (s : State) : Host.Outcome State Fault Refusal :=
  .next (if f < 64 then agentWrite s ag (0x501000 + 16 * f) (fnCtlWord s f 1) else s)

/-- FUNCTION_DISABLE (03 R112, R115): FN_CTL.EN written 0, DLIM and SLOT as they stand. -/
def execFunctionDisable (ag : Agent) (f : Nat) (s : State) : Host.Outcome State Fault Refusal :=
  .next (if f < 64 then agentWrite s ag (0x501000 + 16 * f) (fnCtlWord s f 0) else s)

/-- FUNCTION_RELOAD (03 R112, R123): FN_CTL.RELOAD written 1 with SLOT. -/
def execFunctionReload (ag : Agent) (f : Nat) (slot : Bool) (s : State) : Host.Outcome State Fault Refusal :=
  .next (if f < 64 then agentWrite s ag (0x501000 + 16 * f) (setBit (fnCtlWord s f 4) 4 slot) else s)

/-- FUNCTION_UNLOAD (03 R112, R113): FN_CTL.UNLOAD written 1. -/
def execFunctionUnload (ag : Agent) (f : Nat) (s : State) : Host.Outcome State Fault Refusal :=
  .next (if f < 64 then agentWrite s ag (0x501000 + 16 * f) (fnCtlWord s f 8) else s)

/-- GRANT_CHANGE (04 R161): SEC_PMC_GRANTp written. -/
def execGrantChange (ag : Agent) (p : Nat) (v : Word) (s : State) : Host.Outcome State Fault Refusal :=
  .next (if p < 16 then agentWrite s ag (0x5C0300 + 4 * p) v else s)

/-- CHAL (04 R165, R167): SEC_UNL_CTL.CHAL written 1. -/
def execChal (ag : Agent) (s : State) : Host.Outcome State Fault Refusal := .next (agentWrite s ag (0x5C0900) 1)

/-- UNLOCK_SUBMIT (04 R165): the last word of SEC_UNL_MSG written. -/
def execUnlockSubmit (ag : Agent) (v : Word) (s : State) : Host.Outcome State Fault Refusal := .next (agentWrite s ag (0x5C0AFC) v)

/-- RELOCK (04 R166): SEC_UNL_CTL.RELOCK written 1. -/
def execRelock (ag : Agent) (s : State) : Host.Outcome State Fault Refusal := .next (agentWrite s ag (0x5C0900) 2)

/-- SEAL_REQUEST (04 R175, R176): SEC_SEAL written. -/
def execSealRequest (ag : Agent) (v : Word) (s : State) : Host.Outcome State Fault Refusal := .next (agentWrite s ag (0x5C0280) v)

/-- CTX_SW_WRITE (05 R196): CTX_SW of a HALTED context written by a debugger. -/
def execCtxSwWrite (ag : Agent) (c : Nat) (v : Word) (s : State) : Host.Outcome State Fault Refusal :=
  .next (agentWrite s ag (winA c 0x04) v)

/-- CTX_TSBP_WRITE (05 R194, R196): CTX_TSBP of a HALTED context written by a debugger. -/
def execCtxTsbpWrite (ag : Agent) (c : Nat) (v : Word) (s : State) : Host.Outcome State Fault Refusal :=
  .next (agentWrite s ag (winA c 0x0C) v)

/-- CTX_VDATA3_WRITE (05 R197): the held lanes and lane 3 go into the register that CTX_VSEL selects. -/
def execCtxVdata3Write (ag : Agent) (c : Nat) (v : Word) (s : State) : Host.Outcome State Fault Refusal :=
  .next (agentWrite s ag (winA c 0x3C) v)

/-- KICK (09 R361, R364): CFG_WDp_CTL written with KICK 1. -/
def execKick (ag : Agent) (p : Nat) (s : State) : Host.Outcome State Fault Refusal :=
  .next (if p < 16 then agentWrite s ag (0x500A00 + 16 * p) 0x80000000 else s)

/-- WATCHDOG_CONFIG_WRITE (09 R364): CFG_WDp_CTL written with KICK 0. -/
def execWatchdogConfigWrite (ag : Agent) (p : Nat) (v : Word) (s : State) : Host.Outcome State Fault Refusal :=
  .next (if p < 16 then agentWrite s ag (0x500A00 + 16 * p) (v &&& 0x7FFFFFFF) else s)

/-- EXCEPTION_RECORD_CLEAR (09 R356): CFG_XRp_INFO.VALID cleared. -/
def execExceptionRecordClear (ag : Agent) (t p : Nat) (s : State) : Host.Outcome State Fault Refusal :=
  .next (if p < 16 then agentWrite s ag (ta t (0x500800 + 16 * p)) 0x80000000 else s)

/-- DOORBELL (10 R387): EVC_DOORBELL written. -/
def execDoorbell (ag : Agent) (t : Nat) (v : Word) (s : State) : Host.Outcome State Fault Refusal :=
  .next (agentWrite s ag (ta t 0x510000) v)

/-- PSET (10 R393): EVC_SSTATn.PSET written 1. -/
def execPset (ag : Agent) (t n : Nat) (s : State) : Host.Outcome State Fault Refusal :=
  .next (if n < 1023 then agentWrite s ag (ta t (0x511008 + 16 * n)) 0x10 else s)

/-- PCLR (10 R393): EVC_SSTATn.PCLR written 1. -/
def execPclr (ag : Agent) (t n : Nat) (s : State) : Host.Outcome State Fault Refusal :=
  .next (if n < 1023 then agentWrite s ag (ta t (0x511008 + 16 * n)) 0x20 else s)

/-- EVENT_CLAIM (10 R382): EVC_CLAIMp read. -/
def execEventClaim (ag : Agent) (t p : Nat) (s : State) : Host.Outcome State Fault Refusal :=
  .next (if p < 16 then agentRead s ag (ta t (0x510100 + 16 * p)) else s)

/-- EVENT_HOST_COMPLETE (10 R380): EVC_COMPLp written. -/
def execEventHostComplete (ag : Agent) (t p : Nat) (v : Word) (s : State) : Host.Outcome State Fault Refusal :=
  .next (if p < 16 then agentWrite s ag (ta t (0x510104 + 16 * p)) v else s)

/-- FLOW_CONSUME (11 R407): MAC_FLOWf_CONS written. -/
def execFlowConsume (ag : Agent) (p f : Nat) (v : Word) (s : State) : Host.Outcome State Fault Refusal :=
  .next (if f < 8 then agentWrite s ag (pa p (flowOff f 0x10)) v else s)

/-- TRANSMIT_POST (11 R412, R413): MAC_TXPOST_HI written. -/
def execTransmitPost (ag : Agent) (p : Nat) (v : Word) (s : State) : Host.Outcome State Fault Refusal :=
  .next (agentWrite s ag (pa p 0x304) v)

/-- FLUSH (11 R417): MAC_CTL.FLUSH written 1, its other fields as they stand. -/
def execFlush (ag : Agent) (p : Nat) (s : State) : Host.Outcome State Fault Refusal :=
  .next (agentWrite s ag (pa p 4) ((rg s (pa p 4) &&& 1) ||| 2))

/-- RETRAIN (13 R466): LNK_k_CTL.RETRAIN written 1. -/
def execRetrain (ag : Agent) (t k : Nat) (s : State) : Host.Outcome State Fault Refusal :=
  .next (if k < 4 then agentWrite s ag (ta t (0x570104 + 0x40 * k)) 1 else s)

/-- LOST_BLOCK_CLEAR (14 R501): FLT_LOSTCLR written. -/
def execLostBlockClear (ag : Agent) (t : Nat) (v : Word) (s : State) : Host.Outcome State Fault Refusal :=
  .next (agentWrite s ag (ta t 0x58000C) v)

/-- FAULT_RECORD_CLEAR (14 R510): FLT_Pp_W0.VALID cleared. -/
def execFaultRecordClear (ag : Agent) (t p : Nat) (s : State) : Host.Outcome State Fault Refusal :=
  .next (if p < 16 then agentWrite s ag (ta t (0x580400 + 16 * p)) 0x80000000 else s)

/-- UNACK (14 R513): FLT_STAT.UNACK cleared. -/
def execUnack (ag : Agent) (t : Nat) (s : State) : Host.Outcome State Fault Refusal := .next (agentWrite s ag (ta t 0x580000) 0x8000)

/-- MAILBOX_SEND (15 R534): MBXm_SEND written. -/
def execMailboxSend (ag : Agent) (m : Nat) (v : Word) (s : State) : Host.Outcome State Fault Refusal :=
  .next (agentWrite s ag (mbxA m 0x10) v)

/-- MAILBOX_SEND_END (15 R534, R535): MBXm_SENDEND written. -/
def execMailboxSendEnd (ag : Agent) (m : Nat) (v : Word) (s : State) : Host.Outcome State Fault Refusal :=
  .next (agentWrite s ag (mbxA m 0x14) v)

/-- MAILBOX_ACK (15 R537): MBXm_ACK written. -/
def execMailboxAck (ag : Agent) (m : Nat) (v : Word) (s : State) : Host.Outcome State Fault Refusal :=
  .next (agentWrite s ag (mbxA m 0x18) v)

/-- RRST (15 R539): MBXm_CTL.RRST written 1. -/
def execRrst (ag : Agent) (m : Nat) (s : State) : Host.Outcome State Fault Refusal := .next (agentWrite s ag (mbxA m 0x1C) 1)

/-- LOCK_READ (15 R541): LCK_n read. -/
def execLockRead (ag : Agent) (n : Nat) (s : State) : Host.Outcome State Fault Refusal :=
  .next (agentRead s ag (ta (n / 64) (0x521000 + 4 * (n % 64))))

/-- LOCK_RELEASE (15 R543): LCK_REL written. -/
def execLockRelease (ag : Agent) (t : Nat) (v : Word) (s : State) : Host.Outcome State Fault Refusal :=
  .next (agentWrite s ag (ta t 0x521100) v)

/-- LOCK_FORCE (15 R544): LCK_FORCE written. -/
def execLockForce (ag : Agent) (t : Nat) (v : Word) (s : State) : Host.Outcome State Fault Refusal :=
  .next (agentWrite s ag (ta t 0x521104) v)

/-- SEQUENCER_START (16 R560): PSQn_CTL.RUN written 1. -/
def execSequencerStart (ag : Agent) (n : Nat) (s : State) : Host.Outcome State Fault Refusal := .next (agentWrite s ag (qa n 0x20) 1)

/-- SEQUENCER_STOP (16 R561): PSQn_CTL.RUN written 0. -/
def execSequencerStop (ag : Agent) (n : Nat) (s : State) : Host.Outcome State Fault Refusal := .next (agentWrite s ag (qa n 0x20) 0)

/-- FLUSHTX (16 R565): PSQn_CTL.FLUSHTX written 1, RUN as it stands. -/
def execFlushtx (ag : Agent) (n : Nat) (s : State) : Host.Outcome State Fault Refusal :=
  .next (agentWrite s ag (qa n 0x20) (seqCtlWith s n 1))

/-- FLUSHRX (16 R565): PSQn_CTL.FLUSHRX written 1, RUN as it stands. -/
def execFlushrx (ag : Agent) (n : Nat) (s : State) : Host.Outcome State Fault Refusal :=
  .next (agentWrite s ag (qa n 0x20) (seqCtlWith s n 2))

/-- SEQUENCER_PUSH (16 R565): PSQn_TXF written. -/
def execSequencerPush (ag : Agent) (n : Nat) (v : Word) (s : State) : Host.Outcome State Fault Refusal :=
  .next (agentWrite s ag (qa n 0x28) v)

/-- SEQUENCER_POP (16 R565): PSQn_RXF read. -/
def execSequencerPop (ag : Agent) (n : Nat) (s : State) : Host.Outcome State Fault Refusal := .next (agentRead s ag (qa n 0x2C))

/-- SEQUENCER_PROGRAM_WRITE (16 R562): a PROG, LOOP or START register, at offset `off`, written; at another offset nothing. -/
def execSequencerProgramWrite (ag : Agent) (n : Nat) (off : BitVec 8) (v : Word) (s : State) : Host.Outcome State Fault Refusal :=
  .next (if progReg off then agentWrite s ag (qa n off.toNat) v else s)

/-- SEQUENCER_FREEZE (18 R622): DBG_FRZ written. -/
def execSequencerFreeze (ag : Agent) (t : Nat) (v : Word) (s : State) : Host.Outcome State Fault Refusal :=
  .next (agentWrite s ag (ta t 0x5B0040) v)

/-- TIMER_COMPARE_WRITE (17 R574): TMRn_CMP written. -/
def execTimerCompareWrite (ag : Agent) (n : Nat) (v : Word) (s : State) : Host.Outcome State Fault Refusal :=
  .next (agentWrite s ag (tma n 0x10) v)

/-- TIMER_COMPARE_WRITE_IMMEDIATE (17 R574): TMRn_CMPI written. -/
def execTimerCompareWriteImmediate (ag : Agent) (n : Nat) (v : Word) (s : State) : Host.Outcome State Fault Refusal :=
  .next (agentWrite s ag (tma n 0x14) v)

/-- CAPTURE_SNAPSHOT (17 R579): TMRn_CSNAP read. -/
def execCaptureSnapshot (ag : Agent) (n : Nat) (s : State) : Host.Outcome State Fault Refusal := .next (agentRead s ag (tma n 0x20))

/-- FORCE (17 R593): PWMp_CTL.FORCE written 1, RUN as it stands. -/
def execForce (ag : Agent) (p : Nat) (s : State) : Host.Outcome State Fault Refusal :=
  .next (agentWrite s ag (wa p 0x18) (pwmCtlWith s p 3))

/-- TRIPCLR (17 R595): PWMp_CTL.TRIPCLR written 1, RUN as it stands. -/
def execTripclr (ag : Agent) (p : Nat) (s : State) : Host.Outcome State Fault Refusal :=
  .next (agentWrite s ag (wa p 0x18) (pwmCtlWith s p 2))

/-- PWM_COMMIT (17 R590): PWMp_CTL.COMMIT written 1, RUN as it stands. -/
def execPwmCommit (ag : Agent) (p : Nat) (s : State) : Host.Outcome State Fault Refusal :=
  .next (agentWrite s ag (wa p 0x18) (pwmCtlWith s p 1))

/-- PWM_START (17 R596): PWMp_CTL.RUN written 1. -/
def execPwmStart (ag : Agent) (p : Nat) (s : State) : Host.Outcome State Fault Refusal := .next (agentWrite s ag (wa p 0x18) 1)

/-- PWM_STOP (17 R596): PWMp_CTL.RUN written 0. -/
def execPwmStop (ag : Agent) (p : Nat) (s : State) : Host.Outcome State Fault Refusal := .next (agentWrite s ag (wa p 0x18) 0)

/-- PWM_PERIOD_WRITE (17 R585): PWMp_PER written. -/
def execPwmPeriodWrite (ag : Agent) (p : Nat) (v : Word) (s : State) : Host.Outcome State Fault Refusal :=
  .next (agentWrite s ag (wa p 0x10) v)

/-- HALT (18 R610, R611): DBG_CTXCTL written with OP 1. -/
def execHalt (ag : Agent) (t : Nat) (v : Word) (s : State) : Host.Outcome State Fault Refusal :=
  .next (agentWrite s ag (ta t 0x5B0004) (setFld v 30 2 1))

/-- RESUME (18 R610, R613): DBG_CTXCTL written with OP 2. -/
def execResume (ag : Agent) (t : Nat) (v : Word) (s : State) : Host.Outcome State Fault Refusal :=
  .next (agentWrite s ag (ta t 0x5B0004) (setFld v 30 2 2))

/-- STEP (18 R610, R612): DBG_CTXCTL written with OP 3. -/
def execStep (ag : Agent) (t : Nat) (v : Word) (s : State) : Host.Outcome State Fault Refusal :=
  .next (agentWrite s ag (ta t 0x5B0004) (setFld v 30 2 3))

/-- COUNTER_CLAIM (18 R623): PMC_CLAIMi read. -/
def execCounterClaim (ag : Agent) (t i : Nat) (s : State) : Host.Outcome State Fault Refusal :=
  .next (if i < 144 then agentRead s ag (pmcA t i 0) else s)

/-- COUNTER_RELEASE (18 R623): PMC_CLAIMi.REL written 1. -/
def execCounterRelease (ag : Agent) (t i : Nat) (s : State) : Host.Outcome State Fault Refusal :=
  .next (if i < 144 then agentWrite s ag (pmcA t i 0) 1 else s)

/-- COUNTER_WRITE (18 R626): PMC_CNTi_HI written. -/
def execCounterWrite (ag : Agent) (t i : Nat) (v : Word) (s : State) : Host.Outcome State Fault Refusal :=
  .next (if i < 144 then agentWrite s ag (pmcA t i 0x10) v else s)

/-- SNAPSHOT_NOW (18 R627): PMC_SNAPp_CTL.NOW written 1, ARM as it stands. -/
def execSnapshotNow (ag : Agent) (t p : Nat) (s : State) : Host.Outcome State Fault Refusal :=
  .next (if p < 16 then agentWrite s ag (ta t (0x5A2000 + 16 * p)) ((rg s (ta t (0x5A2000 + 16 * p)) &&& 2) ||| 1) else s)

/-- SNAPSHOT_ARM (18 R627): PMC_SNAPp_CTL.ARM written 1. -/
def execSnapshotArm (ag : Agent) (t p : Nat) (s : State) : Host.Outcome State Fault Refusal :=
  .next (if p < 16 then agentWrite s ag (ta t (0x5A2000 + 16 * p)) 2 else s)

/-- SAMPLER_CLAIM (18 R628): PMC_SMPe_CLAIM read. -/
def execSamplerClaim (ag : Agent) (t e : Nat) (s : State) : Host.Outcome State Fault Refusal :=
  .next (if e < 16 then agentRead s ag (smpA t e 0) else s)

/-- SAMPLER_RELEASE (18 R628): PMC_SMPe_CLAIM.REL written 1. -/
def execSamplerRelease (ag : Agent) (t e : Nat) (s : State) : Host.Outcome State Fault Refusal :=
  .next (if e < 16 then agentWrite s ag (smpA t e 0) 1 else s)

/-- SAMPLE_REMOVE (18 R628): PMC_SMPe_STAT.DONE written `n`. -/
def execSampleRemove (ag : Agent) (t e n : Nat) (s : State) : Host.Outcome State Fault Refusal :=
  .next (if e < 16 then agentWrite s ag (smpA t e 0xC) (fields [(8, 7, n)]) else s)

/-- POWER_DOWN (19 R636, R637): PWR_CMD written with OP 0. -/
def execPowerDown (ag : Agent) (t : Nat) (v : Word) (s : State) : Host.Outcome State Fault Refusal :=
  .next (agentWrite s ag (ta t 0x590004) (setBit v 31 false))

/-- POWER_UP (19 R639): PWR_CMD written with OP 1. -/
def execPowerUp (ag : Agent) (t : Nat) (v : Word) (s : State) : Host.Outcome State Fault Refusal :=
  .next (agentWrite s ag (ta t 0x590004) (setBit v 31 true))

end Sys2Proof.Machine
end

