-- ==== Sys2Proof/Machine/Start.lean ====
section
/-! DEFINITION. The start sequence (03 R106 to R110): one command runs steps 1 to 9 on what the surroundings and the links show; a second
ends it with step 10. -/
namespace Sys2Proof.Machine

/-- CFG_BOOT, CFG_BOOTTIME, CFG_NVM_INFO. -/
def bootA : Nat := 0x500010
def bootTimeA : Nat := 0x500014
def nvmInfoA : Nat := 0x500018

/-- CFG_BOOT.PHASE. -/
def setPhase (s : State) (n : Nat) : State := modRg s bootA fun w => setFld w 0 3 n

/-! ## Steps 1 to 3 -/

/-- A domain is requested, and acknowledged where the surroundings do so (19 R634, R641). -/
def startDomain (env : StartEnv) (t : Nat) (s : State) (d : Nat) : State :=
  let s := modTile s t fun x => { x with req := setBit x.req d true }
  if env.acks.contains (t * 10 + d) then bumpGen (modTile s t fun x => { x with ack := setBit x.ack d true, stale := setBit x.stale d false }) t d else s

/-- The domains of step 1. -/
def firstDomains : List Nat := [domSEC, domBUF, domLINK]

/-- BUF, SEC and LINK of every tile. -/
def startPower (s : State) (env : StartEnv) : State :=
  (tilesOf s).foldl (fun s t => firstDomains.foldl (startDomain env t) s) s

/-- Every acknowledge of step 1 has come. -/
def startAcked (s : State) : Bool := (tilesOf s).all fun t => firstDomains.all fun d => bit (getTile s t).ack d

/-- What training makes of link `k` of tile `t`: in service at x16 or x8, or still in training. Either end may be listed. -/
def trained (s : State) (env : StartEnv) (t k : Nat) : Option Bool :=
  let other := peerOf s.nTiles t k * 4 + peerLink s.nTiles t k
  (env.links.find? fun l => l.1 == t * 4 + k || l.1 == other).map Prod.snd

/-- Links of tile `t` leave DOWN (13 R467, R486); each change of state raises the link's source. -/
def startLink (env : StartEnv) (t : Nat) (s : State) (k : Nat) : State :=
  if !bit (getTile s t).ack domLINK then s
  else
    let s := raiseEdge (modLink s (t * 4 + k) fun l => { l with st := .training }) t (0x3C8 + k)
    match (if bit (getTile s (peerOf s.nTiles t k)).ack domLINK then trained s env t k else none) with
    | some x8 => raiseEdge (modLink s (t * 4 + k) fun l => { l with st := if x8 then .degraded else .up, x8 := x8, served := true }) t (0x3C8 + k)
    | none => s

/-- The link-state notices of training (13 R468): tile `t` sends one on every live link, and it arrives (notes/assumptions/35.md). -/
def startPeers (s : State) (t : Nat) : State :=
  let live := (List.range 4).filter (linkLive s t)
  live.foldl (fun s k =>
    let m := peerOf s.nTiles t k
    let (s, fl) := numberFlit s t (ctrlFlitOf ctlLinks m t (ofBits 32 live))
    modTile (carryHop s t k fl) m fun x =>
      { x with peers := x.peers.filter (· / 4 != t) ++ live.map (t * 4 + ·), eseqIn := sput {} x.eseqIn (t * 4 + 3) { expect := fl.eseq + 1 } }) s

/-- Every link of every tile. -/
def startLinks (s : State) (env : StartEnv) : State :=
  let s := (tilesOf s).foldl (fun s t => (List.range 4).foldl (startLink env t) s) s
  (tilesOf s).foldl startPeers s

/-- A failure of steps 2 and 3, which refuses both header slots (R93, R120): 0 where there is none. -/
def preReason (s : State) (env : StartEnv) : Nat :=
  match env.sfdp with
  | none => 1
  | some x => if x.dwords < 16 || 28 < x.log2size then 2 else if !startAcked s then 3 else 0

/-- CFG_NVM_INFO (R97): with a mode and a divisor in use. The port uses 4-byte addressing with every flash: by the 4-byte forms of its
instructions, or after 0xB7 (R91). -/
def nvmInfo (x : Sfdp) (div mode : Nat) : Word :=
  fields [(16, 8, x.log2size), (8, 8, div), (5, 1, 1), (4, 1, x.qe.toNat), (2, 2, x.cap.toNat), (0, 2, mode)]

/-- Steps 1 to 3. -/
def startUp (s : State) (env : StartEnv) : State :=
  let s := setPhase (startLinks (startPower { s with begun := true } env) env) 2
  match env.sfdp with
  | some x => if x.dwords < 16 || 28 < x.log2size then s else setRg s nvmInfoA (nvmInfo x 16 x.cap.toNat)
  | none => s

/-! ## Steps 4 and 5 -/

/-- The header slot's bytes. -/
def slotBytes (s : State) (slot : Bool) : List Byte := flashBytes s (slot.toNat * 0x10000) 0x9500

/-- The domains that a header's bound units lie in, as tile and domain; every quad of a tile with a bound context, since no schedule has
been read. -/
def boundDomains (s : State) (fns : List FnDesc) : List (Nat × Nat) :=
  (tilesOf s).flatMap fun t =>
    let hit (sel : FnDesc → Nat) (n : Nat) : Bool := fns.any fun d => (span (t * n) n).any (sel d).testBit
    (if hit FnDesc.ctxs 256 then (List.range 4).map fun q => (t, domQ q) else []) ++
    (if hit FnDesc.ports 8 || hit FnDesc.pairs 8 then [(t, domPORT)] else []) ++ (if hit FnDesc.psqs 32 then [(t, domPIN)] else [])

/-- Section keys of the parcels of a header (04 R136): `key` is HDR_KEY. -/
def secKeysOf (parcels : List (Nat × ParcelEntry)) (root : BitVec 256) (key : List Byte) : List (Nat × BitVec 256) :=
  let prk := hmac (ascii "GVX-1608 root v1") (leBytes 32 root.toNat)
  parcels.map fun e =>
    let dig := if e.1 = 0 then sha384 key else leBytes 48 e.2.keyDigest.toNat
    (e.1, BitVec.ofNat 256 (leVal (hkdf prk (ascii "gvx-sec" ++ [BitVec.ofNat 8 e.1] ++ dig) 32)))

/-- The settings records that an image gives function `f`'s sequencers: register address and value, in directory order. Sections and
directories that a load would refuse give none. -/
def imageSettings (s : State) (p : Nat) (e : ParcelEntry) : List (Nat × Word) :=
  let b := dirBytes s e e.bootSlot
  if dirRefusal p e b ≠ 0 then []
  else ((dirEnts b).filter fun x => x.kind == 7).flatMap fun x =>
    let c := secPayload s p e x
    if c.1 ≠ 0 then []
    else (List.range (c.2.length / 8)).filterMap fun i =>
      let off := num c.2 (8 * i) 4
      let n := x.tile * 32 + (off - 0x540000) / 0x100
      if 0x540000 ≤ off && off < 0x542000 && fnOfSeq s n == some x.fn then some (ta x.tile off, BitVec.ofNat 32 (num c.2 (8 * i + 4) 4)) else none

/-- Sequencers of different parcels share a GP pin in the image of header slot `b` (R120 code 0x10, 16 R548): by the last PSQn_CFG and
PSQn_PINS that the settings sections of its boot directories give. DEDUCED: the header itself names no pin, so the start looks into the
directories here (notes/assumptions/36.md). -/
def imagePins (s : State) (env : StartEnv) (slot : Bool) (b : List Byte) : Bool :=
  let h := hdrOf slot b
  let s := { s with hdr := some h, sec := { s.sec with secKeys := secKeysOf h.parcels ((envRoot env).getD 0) (hdrKey b) } }
  let recs := h.parcels.flatMap fun e => imageSettings s e.1 e.2
  let last (a : Nat) : Word := ((recs.reverse.find? fun r => r.1 == a).map Prod.snd).getD 0
  let sets := (List.range (s.nTiles * 32)).filterMap fun n =>
    (fnOfSeq s n).map fun f => (n / 32, fnParcel s f, pinSet (last (qa n 0)) (last (qa n 4)))
  !noClash (fun x y => x.1 == y.1 && x.2.1 != y.2.1 && x.2.2.any y.2.2.contains) sets

/-- The reason for refusing a header slot (R108, R120, 19 R635): its own checks, then the acknowledges of the domains it binds; 0 accepted.
A tile that no route reaches is treated as having none (13 R485). -/
def slotRefusal (s : State) (env : StartEnv) (slot : Bool) : Nat :=
  match preReason s env with
  | 0 =>
    let b := slotBytes s slot
    match hdrRefusal s env b (imagePins s env slot b) with
    | 0 => if ((boundDomains s (hdrFns b)).filter fun x => reachable s x.1).all fun x => env.acks.contains (x.1 * 10 + x.2) then 0 else 3
    | r => r
  | r => r

/-- The whole start is refused (R108). -/
def startRefused (s : State) (r0 r1 : Nat) : State :=
  let s := modRg s bootA fun w => setFld (setFld (setBit w 6 true) 16 8 r0) 24 8 r1
  let s := modRg s (ta 0 0x580000) fun w => setBit w 7 true
  { s with nvm := { s.nvm with startOwned := true } }

/-- The derived keys (04 R136, R137, R139): section keys, tile keys, which go to their tiles over the links, the device identity on every tile. -/
def startKeys (s : State) (root : BitVec 256) (key : List Byte) : State :=
  let prk := hmac (ascii "GVX-1608 root v1") (leBytes 32 root.toNat)
  let parcels := (s.hdr.map fun h => h.parcels).getD []
  let tileOf (t : Nat) : BitVec 384 := digestBits (hkdf prk (ascii "gvx-tile" ++ [BitVec.ofNat 8 t]) 48)
  let ts := (tilesOf s).drop 1
  let s := modSec s fun x => { x with secKeys := secKeysOf parcels root key, tileKeys := ts.map fun t => (t, tileOf t) }
  let s := deliverKeys s
  let id := hkdf prk (ascii "gvx-devid") 16
  (tilesOf s).foldl (fun s t => (List.range 4).foldl (fun s i => setRg s (ta t (0x5C0010 + 4 * i)) (BitVec.ofNat 32 (num id (4 * i) 4))) s) s

/-- Datum rate and pace monitor of tile `t` (R99, 02 R58, R76). -/
def startDatum (b : List Byte) (s : State) (t : Nat) : State :=
  let f := num b 12 4
  let s := setRg s (ta t 0x55F00C) (BitVec.ofNat 32 ((2 ^ 25 * 1000000000 + f) / (2 * f)))
  setRg s (ta t 0x55F020) (fields [(0, 10, num b 0x10 2), (12, 4, num b 0x12 1), (16, 1, num b 11 1)])

/-- A tile at the end of step 5: Datum synchronised (13 R477, R478), or not; reachable, or not (13 R485). -/
def startTile (env : StartEnv) (s : State) (t : Nat) : State :=
  if t = 0 then s
  else
    let ok := env.synced.contains t && (parentOf s t).isSome
    let s := modTile s t fun x => { x with sync := { x.sync with once := true, last := x.ns, parent := ((parentOf s t).map Prod.fst).getD 0 } }
    let s := if ok then modRg s (ta t 0x55F014) fun w => setBit w 7 true
      else writeFault (raiseEdge s t 0x3CC) t { outcome := 5, cls := 0x0D, unit := 0x10, inst := t }
    if reachable s t then s
    else writeFault (modRg s (ta 0 0x580000) fun w => setBit w 4 true) 0 { outcome := 3, cls := 0x0F, unit := 0x0F, inst := t }

/-- Function `f` goes to LOADING at the start (R112; 04 R158). One that binds a resource of a tile that cannot be reached waits for a reload
(13 R485). -/
def startFn (s : State) (f : Nat) (d : FnDesc) : State :=
  modFn (ctxsGone s f) f fun x =>
    { x with st := .loading, dlim := d.dlim, slot := ((parcelEntry s d.parcel).map ParcelEntry.bootSlot).getD false,
             unplaced := (tilesOfFn s f).any fun t => !reachable s t }

/-- Step 5 with an accepted header. The domains of bound units are requested on every tile; one that no route reaches is treated as
unpowered until it is reachable (13 R485). The header's event belongs to no parcel: the parcel byte of its record is 0, a DESIGN CHOICE
(notes/assumptions/27.md). -/
def startAccept (s : State) (env : StartEnv) (slot : Bool) (r0 : Nat) : State :=
  let b := slotBytes s slot
  let s := { s with hdr := some (hdrOf slot b) }
  let s := modRg s bootA fun w => setFld (setBit w 9 slot) 16 8 r0
  let s := match env.sfdp with | some x => setRg s nvmInfoA (nvmInfo x (num b 0x13 1) (num b 0x14 1)) | none => s
  let s := startKeys s ((envRoot env).getD 0) (hdrKey b)
  let s := (List.range 17).foldl (fun s i => setRg s (arcA i) (((envCounter env i).getD 0).setWidth 32)) s
  let s := (tilesOf s).foldl (startDatum b) s
  let s := (boundDomains s (hdrFns b)).foldl (fun s x => startDomain env x.1 s x.2) s
  let s := (tilesOf s).foldl (startTile env) s
  let s := (hdrFns b).zipIdx.foldl (fun s d => startFn s d.2 d.1) s
  setPhase (measure s 0x01 0 0xFF (num b 0x16 2) (sha384 (b.take (hdrLen b))) (parcelList s)) 3

/-! ## Steps 6 to 8 -/

/-- A load in progress: by function, the reason so far and the epoch of its sections. -/
abbrev Loads := List (Nat × Nat × Option Nat)

/-- One section goes to its function's load. -/
def loadSec (p : Nat) (e : ParcelEntry) (r : State × Loads) (x : SecEnt) : State × Loads :=
  match r.2.find? fun l => l.1 == x.fn with
  | some (f, c, ep) =>
    let q := loadOne f p e (r.1, c, ep) x
    (q.1, r.2.map fun l => if l.1 = f then (f, q.2) else l)
  | none => r

/-- The directory of a parcel: the reason for refusing it, and its bytes. -/
def startDir (s : State) (env : StartEnv) (e : Nat × ParcelEntry) : Nat × List Byte :=
  let b := dirBytes s e.2 e.2.bootSlot
  (if !env.readOk then 0x20 else dirRefusal e.1 e.2 b, b)

/-- Functions of parcel `p`. -/
def fnsOf (s : State) (p : Nat) : List Nat := (List.range (nFn s)).filter fun f => fnParcel s f == p

/-- Steps 6 and 7 for one parcel: its directory is measured and its sections other than decode entries placed, in directory order. -/
def startParcel (env : StartEnv) (r : State × Loads) (e : Nat × ParcelEntry) : State × Loads :=
  let d := startDir r.1 env e
  if d.1 ≠ 0 then (r.1, r.2 ++ (fnsOf r.1 e.1).map fun f => (f, d.1, none))
  else
    let new : Loads := (fnsOf r.1 e.1).map fun f => (f, 0, none)
    let q := ((dirEnts d.2).filter fun x => x.kind != 3).foldl (loadSec e.1 e.2) (dirMeasure r.1 e.1 d.2, new)
    (q.1, r.2 ++ q.2)

/-- Step 8 for one parcel: its decode entries. A section of a function of another parcel is none of this directory's. -/
def startDecode (env : StartEnv) (r : State × Loads) (e : Nat × ParcelEntry) : State × Loads :=
  let d := startDir r.1 env e
  if d.1 ≠ 0 then r
  else ((dirEnts d.2).filter fun x => x.kind == 3 && fnParcel r.1 x.fn == e.1).foldl (loadSec e.1 e.2) r

/-- CFG_BOOT.PARTIAL (R109). -/
def setPartial (s : State) : State := modRg s bootA fun w => setBit w 8 true

/-- Steps 6 to 8. -/
def startLoads (s : State) (env : StartEnv) : State :=
  let ps := (s.hdr.map fun h => h.parcels).getD []
  let r := ps.foldl (startDecode env) (ps.foldl (startParcel env) (s, []))
  (List.range (nFn s)).foldl (fun s f =>
    match r.2.find? fun l => l.1 == f with
    | some (_, c, ep) => let s := fnLoadEnd s f c ep; if c ≠ 0 then setPartial s else s
    | none => fnLoadEnd s f 0 none) (setPhase r.1 4)

/-- Step 9: the functions with AUTO, in function order; one whose enable is refused is left UNLOADED (R109). -/
def startAuto (s : State) : State :=
  let auto := (List.range (nFn s)).filter fun f => ((fnDesc s f).map FnDesc.auto).getD false
  auto.foldl (fun s f =>
    if fnState s f = .quiescent then
      match enableCheck s f with
      | 0 => fnAccept s f
      | r => setPartial (loadRefused s f r)
    else s) (setPhase s 5)

/-- Steps 1 to 9. -/
def startRun (s : State) (env : StartEnv) : State :=
  let s := startUp s env
  let r0 := slotRefusal s env false
  if r0 = 0 then startAuto (startLoads (startAccept s env false 0) env)
  else
    let r1 := slotRefusal s env true
    if r1 = 0 then startAuto (startLoads (startAccept s env true r0) env) else startRefused s r0 r1

/-- START_SEQUENCE (R106): reset is released. A sequence runs once after a reset, and not while the key port's test is asserted (04 R135). -/
def execStartSequence (env : StartEnv) (s : State) : Host.Outcome State Fault Refusal :=
  .next (if s.begun || s.kpTest then s else startRun s env)

/-- START_COMPLETE (R106 step 10). -/
def execStartComplete (s : State) : Host.Outcome State Fault Refusal :=
  .next (if fld (rg s bootA) 0 3 = 5 then
      let s := setPhase (modRg s bootA fun w => setBit w 7 true) 6
      raiseEdge (setRg s bootTimeA (now32 s 0)) 0 0x3C0
    else s)

end Sys2Proof.Machine
end

