-- ==== Sys2Proof/Machine/System.lean ====
section
/-! DEFINITION. Commit, wait and fence (07 R278 to R281), system instructions (R282 to R286). -/
namespace Sys2Proof.Machine

/-- COMMIT. -/
def execCommit (c : Nat) (f : BitVec 23) (s : State) : Host.Outcome State Fault Refusal :=
  .next (runInsn s c false (chkNone f) fun s => doCommit s c false)
/-- WAIT: COMMIT, then the activation ends. -/
def execWait (c : Nat) (f : BitVec 23) (s : State) : Host.Outcome State Fault Refusal :=
  .next (runInsn s c false (chkNone f) fun s => doCommit s c true)
/-- FENCE. -/
def execFence (c : Nat) (f : BitVec 23) (s : State) : Host.Outcome State Fault Refusal :=
  .next (runInsn s c false (chkNone f) fun s => next4 (fence s c) c)

/-- rd, ra and rb 0, with a SEL. -/
def chkTrap (f : BitVec 23) : Bool := decide (fld f 11 12 = 0)

/-- TRAP: detail SEL, the saved program counter PC + 4. -/
def execTrap (c : Nat) (f : BitVec 23) (s : State) : Host.Outcome State Fault Refusal :=
  .next (runInsn s c false (chkTrap f) fun s => raiseAt s c 6 (selOf f) 0 ((getCtx s c).pc + 4))

/-- A debugger unlocked with CONTROL for the parcel of context `c` has enabled halting on BRK (18 R610, R614). -/
def brkHalts (s : State) (c : Nat) : Bool :=
  dbgHolds s (c / 256) (ctxParcel s c) 1 && bit (rg s (ta (c / 256) 0x5B0000)) 0

/-- BRK: a halt at BRK, or the breakpoint exception with detail SEL. -/
def execBrk (c : Nat) (f : BitVec 23) (s : State) : Host.Outcome State Fault Refusal :=
  .next (runInsn s c false (chkTrap f) fun s =>
    if brkHalts s c then haltEffect (modCtx s c fun x => { x with haltReq := .brk, stepping := false, stepEv := false, mid := false }) c
    else raise_ s c 7 (selOf f))

/-- RFE (09 R352 to R354). -/
def execRfe (c : Nat) (f : BitVec 23) (s : State) : Host.Outcome State Fault Refusal :=
  .next (runInsn s c false (chkNone f) fun s => if (getCtx s c).exl then doRfe s c else raise_ s c 2 3)

/-! ## Special registers (R283 to R285) -/

/-- CTXID. -/
def ctxIdWord (s : State) (c : Nat) : Word :=
  fields [(0, 11, c), (12, 4, engOf s c), (16, 4, ctxParcel s c), (20, 6, (fnOfCtx s c).getD 0), (26, 1, (isHard s c).toNat)]

/-- What MFS reads under a selector. -/
def mfsVal (s : State) (c sel : Nat) : Option Vec :=
  let x := getCtx s c
  match sel with
  | 0x000 => some (x.sw.setWidth 128)
  | 0x001 => some (x.tsbp.setWidth 128)
  | 0x002 => some ((ctxIdWord s c).setWidth 128)
  | 0x003 => some (x.snap.pc.setWidth 128)
  | 0x004 => some (BitVec.ofNat 128 x.tb.length)
  | 0x010 => some (if x.exl then x.ecause.setWidth 128 else 0)
  | 0x011 => some (if x.exl then x.edetail.setWidth 128 else 0)
  | 0x012 => some (if x.exl then x.eaddr.setWidth 128 else 0)
  | 0x013 => some (if x.exl then x.epc.setWidth 128 else 0)
  | _ => none

/-- MFS. -/
def execMfs (c : Nat) (f : BitVec 23) (s : State) : Host.Outcome State Fault Refusal :=
  .next (runInsn s c false (decide (fld f 11 8 = 0)) fun s =>
    match mfsVal s c (selOf f) with
    | some w => next4 (setV s c (rdOf f) w) c
    | none => raise_ s c 2 4)

/-- A kick by a context (09 R361): at tile 0 at once, else by a KICK flit behind its committed entries. -/
def ctxKick (s : State) (c : Nat) : State :=
  if c / 256 = 0 then wdKick s (ctxParcel s c) else (sendFlit s (c / 256) (stampFlit (mkFlit 6 0 0) (ctxAcc s c))).1

/-- Where an MTS has set IE, an event that waits for the context is delivered before its next instruction (R285), unless a halt comes
first (09 R341). -/
def afterIe (s : State) (c : Nat) : State :=
  if (getCtx s c).ie && decide ((getCtx s c).haltReq = .none) then
    match insideWinner s c with
    | some n => deliverInside s c n
    | none => s
  else s

/-- MTS into the selected register, by SEL (R283, R284). -/
def mtsPut (s : State) (c sel : Nat) (v : Word) : State :=
  match sel with
  | 0x000 => afterIe (next4 (modCtx s c fun x => { x with ie := bit v 8, rpt := bit v 0 }) c) c
  | 0x001 =>
    if 1 < (getCtx s c).priv.toNat then raise_ s c 3 2
    else if tsbpOk s c v then next4 (modCtx s c fun x => { x with tsbp := v &&& ~~~0x7F#32 }) c
    else raise_ (countDeny s (c / 256) (ctxParcel s c)) c 1 7
  | 0x020 => next4 (ctxKick s c) c
  | _ => raise_ s c 2 4

/-- rd and rb 0. -/
def chkMts (f : BitVec 23) : Bool := decide (rdOf f = 0) && chkSys f

/-- Lane 0 of ra. -/
def lane0 (s : State) (c : Nat) (f : BitVec 23) : Word := (getV s c (raOf f)).setWidth 32

/-- MTS, selector SW. -/
def execMtsSw (c : Nat) (f : BitVec 23) (s : State) : Host.Outcome State Fault Refusal :=
  .next (runInsn s c false (chkMts f) fun s => mtsPut s c (selOf f) (lane0 s c f))
/-- MTS, selector TSBP. -/
def execMtsTsbp (c : Nat) (f : BitVec 23) (s : State) : Host.Outcome State Fault Refusal :=
  .next (runInsn s c false (chkMts f) fun s => mtsPut s c (selOf f) (lane0 s c f))
/-- MTS, selector WDKICK. -/
def execWdkick (c : Nat) (f : BitVec 23) (s : State) : Host.Outcome State Fault Refusal :=
  .next (runInsn s c false (chkMts f) fun s => mtsPut s c (selOf f) (lane0 s c f))

/-- The Datum as RDDAT returns it (R286). -/
def datumVec (s : State) (t : Nat) : Vec :=
  let x := getTile s t
  x.ns.setWidth 128 ||| ((x.frac >>> 24).setWidth 128 <<< 64)

/-- RDDAT. -/
def execRddat (c : Nat) (f : BitVec 23) (s : State) : Host.Outcome State Fault Refusal :=
  .next (runReg s c f (decide (fld f 0 19 = 0)) fun s => datumVec s (c / 256))

/-! ## Sequencer and schuss access (R275 to R277) -/

/-- May context `c` reach sequencer `n` of its tile (R275)? 0, or the detail of the refusal. -/
def seqReach (s : State) (c n : Nat) : Nat :=
  if (fnOfSeq s n).isNone || ownerOf s (fnOfSeq s n) != ctxParcel s c then 9
  else if !powered s (c / 256) domPIN then 5 else 0

/-- An access-denied that is no data access: counted, EADDR 0. -/
def refuse0 (s : State) (c det : Nat) : State := raise_ (countDeny s (c / 256) (ctxParcel s c)) c 1 det

/-- The sequencer that SEL names, by cluster number. -/
def selSeq (c : Nat) (f : BitVec 23) : Nat := c / 256 * 32 + selOf f % 32

/-- PSQW. -/
def execPsqw (c : Nat) (f : BitVec 23) (s : State) : Host.Outcome State Fault Refusal :=
  .next (runInsn s c false (chkSys f && decide (selOf f < 32)) fun s =>
    match seqReach s c (selSeq c f) with
    | 0 => let r := seqPush s (selSeq c f) (lane0 s c f); next4 (setV r.1 c (rdOf f) (flag r.2)) c
    | d => refuse0 s c d)

/-- PSQR: the valid flag stands in bit 32. -/
def execPsqr (c : Nat) (f : BitVec 23) (s : State) : Host.Outcome State Fault Refusal :=
  .next (runInsn s c false (decide (fld f 11 8 = 0) && decide (selOf f < 32)) fun s =>
    match seqReach s c (selSeq c f) with
    | 0 =>
      match seqPop s (selSeq c f) with
      | (s, some w) => next4 (setV s c (rdOf f) (BitVec.ofNat 128 (w.toNat + 2 ^ 32))) c
      | (s, none) => next4 (setV s c (rdOf f) 0) c
    | d => refuse0 s c d)

/-- The pair whose hard context is `c`. -/
def hardPair (s : State) (c : Nat) : Option Nat := if isHard s c then pairOfCtx s c else none

/-- A pair of an unpowered PORT domain is not reached: refused at once (05 R219, 12 R455, 01 R42). -/
def pairReach (s : State) (c : Nat) : Nat := if powered s (c / 256) domPORT then 0 else 5

/-- SCHR by SEL: 0 the next chunk, 1 the status. -/
def runSchr (s : State) (c : Nat) (f : BitVec 23) : State :=
  runInsn s c false (decide (fld f 11 8 = 0) && decide (selOf f < 2)) fun s =>
    match hardPair s c with
    | none => refuse0 s c 9
    | some k =>
      if pairReach s c ≠ 0 then refuse0 s c (pairReach s c)
      else if selOf f = 1 then next4 (setV s c (rdOf f) ((schrStatus s k).setWidth 128)) c
      else
        match schrTake s k with
        | (s, some w) => next4 (setV s c (rdOf f) w) c
        | (s, none) => stallIn s c .chunk

/-- SCHR, SEL 0. -/
def execSchr (c : Nat) (f : BitVec 23) (s : State) : Host.Outcome State Fault Refusal := .next (runSchr s c f)
/-- SCHR, SEL 1. -/
def execSchrStatus (c : Nat) (f : BitVec 23) (s : State) : Host.Outcome State Fault Refusal := .next (runSchr s c f)

/-- SCHW. -/
def execSchw (c : Nat) (f : BitVec 23) (s : State) : Host.Outcome State Fault Refusal :=
  .next (runInsn s c false (chkSys f && decide (selOf f = 0)) fun s =>
    match hardPair s c with
    | none => refuse0 s c 9
    | some k => if pairReach s c ≠ 0 then refuse0 s c (pairReach s c) else let r := schwPut s k (getV s c (raOf f)); next4 (setV r.1 c (rdOf f) (flag r.2)) c)

/-- An opcode that the map shows as reserved (06 R247): undefined-instruction at check 2. -/
def execReservedOpcode (c : Nat) (_op : BitVec 8) (_f : BitVec 23) (s : State) : Host.Outcome State Fault Refusal :=
  .next (runInsn s c false true fun s => raise_ s c 2 1)

end Sys2Proof.Machine
end

