-- ==== Sys2Proof/Machine/Dispatch.lean ====
section
/-! DEFINITION. The meaning of each command, one arm per constructor of `Instr`. -/
namespace Sys2Proof.Machine

/-- The effect of a command on everything but the queue of waiting commands. -/
def exec (i : Instr) (s : State) : Host.Outcome State Fault Refusal :=
  match i with
  | .clusterReset => Sys2Proof.Machine.execClusterReset s
  | .startSequence env => Sys2Proof.Machine.execStartSequence env s
  | .startComplete => Sys2Proof.Machine.execStartComplete s
  | .registerWrite ag addr v => Sys2Proof.Machine.execRegisterWrite ag addr v s
  | .readClear ag addr => Sys2Proof.Machine.execReadClear ag addr s
  | .hostRead rid tag addr size => Sys2Proof.Machine.execHostRead rid tag addr size s
  | .hostWrite rid tag addr size data => Sys2Proof.Machine.execHostWrite rid tag addr size data s
  | .hostResponseTaken => Sys2Proof.Machine.execHostResponseTaken s
  | .hostResponseSlow => Sys2Proof.Machine.execHostResponseSlow s
  | .referenceLost t => Sys2Proof.Machine.execReferenceLost t s
  | .referenceOutOfRange t => Sys2Proof.Machine.execReferenceOutOfRange t s
  | .referenceResumed t => Sys2Proof.Machine.execReferenceResumed t s
  | .tmrDadjWrite ag t v => Sys2Proof.Machine.execTmrDadjWrite ag t v s
  | .paceWindowEnd t q0 q1 q2 q3 => Sys2Proof.Machine.execPaceWindowEnd t q0 q1 q2 q3 s
  | .paceCtlWrite ag t v => Sys2Proof.Machine.execPaceCtlWrite ag t v s
  | .rstmin ag t => Sys2Proof.Machine.execRstmin ag t s
  | .nvmPortAcquire ag => Sys2Proof.Machine.execNvmPortAcquire ag s
  | .nvmPortRelease ag => Sys2Proof.Machine.execNvmPortRelease ag s
  | .nvmReadPage ag gran => Sys2Proof.Machine.execNvmReadPage ag gran s
  | .nvmProgramPage ag gran => Sys2Proof.Machine.execNvmProgramPage ag gran s
  | .nvmEraseSector ag gran => Sys2Proof.Machine.execNvmEraseSector ag gran s
  | .nvmCommandIssue => Sys2Proof.Machine.execNvmCommandIssue s
  | .nvmCommandDone => Sys2Proof.Machine.execNvmCommandDone s
  | .nvmCommandTimeout => Sys2Proof.Machine.execNvmCommandTimeout s
  | .functionEnable ag f => Sys2Proof.Machine.execFunctionEnable ag f s
  | .functionDisable ag f => Sys2Proof.Machine.execFunctionDisable ag f s
  | .functionReload ag f slot => Sys2Proof.Machine.execFunctionReload ag f slot s
  | .reloadStart => Sys2Proof.Machine.execReloadStart s
  | .reloadComplete readOk => Sys2Proof.Machine.execReloadComplete readOk s
  | .functionUnload ag f => Sys2Proof.Machine.execFunctionUnload ag f s
  | .unloadZeroFillComplete f => Sys2Proof.Machine.execUnloadZeroFillComplete f s
  | .drainComplete f => Sys2Proof.Machine.execDrainComplete f s
  | .drainLimitExpired f => Sys2Proof.Machine.execDrainLimitExpired f s
  | .keyPortAcknowledge rd err => Sys2Proof.Machine.execKeyPortAcknowledge rd err s
  | .keyPortTimeout => Sys2Proof.Machine.execKeyPortTimeout s
  | .keyPortTestAssert => Sys2Proof.Machine.execKeyPortTestAssert s
  | .keyPortTestDeassert => Sys2Proof.Machine.execKeyPortTestDeassert s
  | .grantChange ag p v => Sys2Proof.Machine.execGrantChange ag p v s
  | .chal ag => Sys2Proof.Machine.execChal ag s
  | .challengeReady => Sys2Proof.Machine.execChallengeReady s
  | .challengeExpired => Sys2Proof.Machine.execChallengeExpired s
  | .unlockSubmit ag v => Sys2Proof.Machine.execUnlockSubmit ag v s
  | .unlockVerifyComplete => Sys2Proof.Machine.execUnlockVerifyComplete s
  | .relock ag => Sys2Proof.Machine.execRelock ag s
  | .unlockLifeExpired => Sys2Proof.Machine.execUnlockLifeExpired s
  | .unlockWaitElapsed => Sys2Proof.Machine.execUnlockWaitElapsed s
  | .sealRequest ag v => Sys2Proof.Machine.execSealRequest ag v s
  | .sealComplete => Sys2Proof.Machine.execSealComplete s
  | .tagGroupRebuild t g => Sys2Proof.Machine.execTagGroupRebuild t g s
  | .eventPresentation c => Sys2Proof.Machine.execEventPresentation c s
  | .accessComplete c => Sys2Proof.Machine.execAccessComplete c s
  | .storeComplete c => Sys2Proof.Machine.execStoreComplete c s
  | .commitReleaseEntry c => Sys2Proof.Machine.execCommitReleaseEntry c s
  | .ctxSwWrite ag c v => Sys2Proof.Machine.execCtxSwWrite ag c v s
  | .ctxTsbpWrite ag c v => Sys2Proof.Machine.execCtxTsbpWrite ag c v s
  | .ctxVdata3Write ag c v => Sys2Proof.Machine.execCtxVdata3Write ag c v s
  | .add c f => Sys2Proof.Machine.execAdd c f s
  | .sub c f => Sys2Proof.Machine.execSub c f s
  | .and c f => Sys2Proof.Machine.execAnd c f s
  | .or c f => Sys2Proof.Machine.execOr c f s
  | .xor c f => Sys2Proof.Machine.execXor c f s
  | .andn c f => Sys2Proof.Machine.execAndn c f s
  | .mul c f => Sys2Proof.Machine.execMul c f s
  | .mulhu c f => Sys2Proof.Machine.execMulhu c f s
  | .min c f => Sys2Proof.Machine.execMin c f s
  | .max c f => Sys2Proof.Machine.execMax c f s
  | .minu c f => Sys2Proof.Machine.execMinu c f s
  | .maxu c f => Sys2Proof.Machine.execMaxu c f s
  | .adds c f => Sys2Proof.Machine.execAdds c f s
  | .subs c f => Sys2Proof.Machine.execSubs c f s
  | .not c f => Sys2Proof.Machine.execNot c f s
  | .mov c f => Sys2Proof.Machine.execMov c f s
  | .addi c f => Sys2Proof.Machine.execAddi c f s
  | .andi c f => Sys2Proof.Machine.execAndi c f s
  | .ori c f => Sys2Proof.Machine.execOri c f s
  | .xori c f => Sys2Proof.Machine.execXori c f s
  | .muli c f => Sys2Proof.Machine.execMuli c f s
  | .li c f => Sys2Proof.Machine.execLi c f s
  | .liu c f => Sys2Proof.Machine.execLiu c f s
  | .shl c f => Sys2Proof.Machine.execShl c f s
  | .shr c f => Sys2Proof.Machine.execShr c f s
  | .sar c f => Sys2Proof.Machine.execSar c f s
  | .rol c f => Sys2Proof.Machine.execRol c f s
  | .shli c f => Sys2Proof.Machine.execShli c f s
  | .shri c f => Sys2Proof.Machine.execShri c f s
  | .sari c f => Sys2Proof.Machine.execSari c f s
  | .roli c f => Sys2Proof.Machine.execRoli c f s
  | .lget c f => Sys2Proof.Machine.execLget c f s
  | .lput c f => Sys2Proof.Machine.execLput c f s
  | .dup c f => Sys2Proof.Machine.execDup c f s
  | .bswap c f => Sys2Proof.Machine.execBswap c f s
  | .clz c f => Sys2Proof.Machine.execClz c f s
  | .popc c f => Sys2Proof.Machine.execPopc c f s
  | .perm c f => Sys2Proof.Machine.execPerm c f s
  | .ceq c f => Sys2Proof.Machine.execCeq c f s
  | .cne c f => Sys2Proof.Machine.execCne c f s
  | .clt c f => Sys2Proof.Machine.execClt c f s
  | .cle c f => Sys2Proof.Machine.execCle c f s
  | .cltu c f => Sys2Proof.Machine.execCltu c f s
  | .cleu c f => Sys2Proof.Machine.execCleu c f s
  | .cany c f => Sys2Proof.Machine.execCany c f s
  | .ceqi c f => Sys2Proof.Machine.execCeqi c f s
  | .cnei c f => Sys2Proof.Machine.execCnei c f s
  | .clti c f => Sys2Proof.Machine.execClti c f s
  | .cltui c f => Sys2Proof.Machine.execCltui c f s
  | .ld8 c f => Sys2Proof.Machine.execLd8 c f s
  | .ld16 c f => Sys2Proof.Machine.execLd16 c f s
  | .ld32 c f => Sys2Proof.Machine.execLd32 c f s
  | .ld64 c f => Sys2Proof.Machine.execLd64 c f s
  | .ld128 c f => Sys2Proof.Machine.execLd128 c f s
  | .lds8 c f => Sys2Proof.Machine.execLds8 c f s
  | .lds16 c f => Sys2Proof.Machine.execLds16 c f s
  | .lds32 c f => Sys2Proof.Machine.execLds32 c f s
  | .st8 c f => Sys2Proof.Machine.execSt8 c f s
  | .st16 c f => Sys2Proof.Machine.execSt16 c f s
  | .st32 c f => Sys2Proof.Machine.execSt32 c f s
  | .st64 c f => Sys2Proof.Machine.execSt64 c f s
  | .st128 c f => Sys2Proof.Machine.execSt128 c f s
  | .bz c f => Sys2Proof.Machine.execBz c f s
  | .bnz c f => Sys2Proof.Machine.execBnz c f s
  | .j c f => Sys2Proof.Machine.execJ c f s
  | .call c f => Sys2Proof.Machine.execCall c f s
  | .jr c f => Sys2Proof.Machine.execJr c f s
  | .callr c f => Sys2Proof.Machine.execCallr c f s
  | .rmov c f n => Sys2Proof.Machine.execRmov c f n s
  | .rfill c f n => Sys2Proof.Machine.execRfill c f n s
  | .rcmp c f n => Sys2Proof.Machine.execRcmp c f n s
  | .rscan c f n => Sys2Proof.Machine.execRscan c f n s
  | .rcrc c f n => Sys2Proof.Machine.execRcrc c f n s
  | .rsum c f n => Sys2Proof.Machine.execRsum c f n s
  | .commit c f => Sys2Proof.Machine.execCommit c f s
  | .wait c f => Sys2Proof.Machine.execWait c f s
  | .fence c f => Sys2Proof.Machine.execFence c f s
  | .trap c f => Sys2Proof.Machine.execTrap c f s
  | .brk c f => Sys2Proof.Machine.execBrk c f s
  | .rfe c f => Sys2Proof.Machine.execRfe c f s
  | .mfs c f => Sys2Proof.Machine.execMfs c f s
  | .mtsSw c f => Sys2Proof.Machine.execMtsSw c f s
  | .mtsTsbp c f => Sys2Proof.Machine.execMtsTsbp c f s
  | .wdkick c f => Sys2Proof.Machine.execWdkick c f s
  | .rddat c f => Sys2Proof.Machine.execRddat c f s
  | .psqw c f => Sys2Proof.Machine.execPsqw c f s
  | .psqr c f => Sys2Proof.Machine.execPsqr c f s
  | .schr c f => Sys2Proof.Machine.execSchr c f s
  | .schrStatus c f => Sys2Proof.Machine.execSchrStatus c f s
  | .schw c f => Sys2Proof.Machine.execSchw c f s
  | .crc32 c f => Sys2Proof.Machine.execCrc32 c f s
  | .crc16 c f => Sys2Proof.Machine.execCrc16 c f s
  | .csum16 c f => Sys2Proof.Machine.execCsum16 c f s
  | .pairedWord c w => Sys2Proof.Machine.execPairedWord c w s
  | .customerInstruction c op f => Sys2Proof.Machine.execCustomerInstruction c op f s
  | .reservedOpcode c op f => Sys2Proof.Machine.execReservedOpcode c op f s
  | .watchdogExpired p => Sys2Proof.Machine.execWatchdogExpired p s
  | .kick ag p => Sys2Proof.Machine.execKick ag p s
  | .watchdogConfigWrite ag p v => Sys2Proof.Machine.execWatchdogConfigWrite ag p v s
  | .exceptionRecordClear ag t p => Sys2Proof.Machine.execExceptionRecordClear ag t p s
  | .doorbell ag t v => Sys2Proof.Machine.execDoorbell ag t v s
  | .pset ag t n => Sys2Proof.Machine.execPset ag t n s
  | .pclr ag t n => Sys2Proof.Machine.execPclr ag t n s
  | .eventClaim ag t p => Sys2Proof.Machine.execEventClaim ag t p s
  | .eventHostComplete ag t p v => Sys2Proof.Machine.execEventHostComplete ag t p v s
  | .frameReceiveStart p bytes => Sys2Proof.Machine.execFrameReceiveStart p bytes s
  | .frameReceiveEnd p rxer => Sys2Proof.Machine.execFrameReceiveEnd p rxer s
  | .jabber p => Sys2Proof.Machine.execJabber p s
  | .flowConsume ag p f v => Sys2Proof.Machine.execFlowConsume ag p f v s
  | .transmitPost ag p v => Sys2Proof.Machine.execTransmitPost ag p v s
  | .transmitFrameStart p => Sys2Proof.Machine.execTransmitFrameStart p s
  | .transmitFrameEnd p => Sys2Proof.Machine.execTransmitFrameEnd p s
  | .flush ag p => Sys2Proof.Machine.execFlush ag p s
  | .linkUp p speed => Sys2Proof.Machine.execLinkUp p speed s
  | .linkDown p cause => Sys2Proof.Machine.execLinkDown p cause s
  | .pauseExpired p q => Sys2Proof.Machine.execPauseExpired p q s
  | .pauseRefreshDue p => Sys2Proof.Machine.execPauseRefreshDue p s
  | .pauseWatchdog p q => Sys2Proof.Machine.execPauseWatchdog p q s
  | .rateWindowEnd t => Sys2Proof.Machine.execRateWindowEnd t s
  | .chunkComplete k => Sys2Proof.Machine.execChunkComplete k s
  | .chunkRelease k => Sys2Proof.Machine.execChunkRelease k s
  | .schussEgressStart k => Sys2Proof.Machine.execSchussEgressStart k s
  | .idleFlit t k fl => Sys2Proof.Machine.execIdleFlit t k fl s
  | .writeFlit t k fl => Sys2Proof.Machine.execWriteFlit t k fl s
  | .readFlit t k fl => Sys2Proof.Machine.execReadFlit t k fl s
  | .rdataFlit t k fl => Sys2Proof.Machine.execRdataFlit t k fl s
  | .doorbellFlit t k fl => Sys2Proof.Machine.execDoorbellFlit t k fl s
  | .mailboxFlit t k fl => Sys2Proof.Machine.execMailboxFlit t k fl s
  | .kickFlit t k fl => Sys2Proof.Machine.execKickFlit t k fl s
  | .mirwrFlit t k fl => Sys2Proof.Machine.execMirwrFlit t k fl s
  | .mirreqFlit t k fl => Sys2Proof.Machine.execMirreqFlit t k fl s
  | .mirdatFlit t k fl => Sys2Proof.Machine.execMirdatFlit t k fl s
  | .syncFlit t k fl => Sys2Proof.Machine.execSyncFlit t k fl s
  | .ctrlFlit t k fl => Sys2Proof.Machine.execCtrlFlit t k fl s
  | .nakFlit t k fl => Sys2Proof.Machine.execNakFlit t k fl s
  | .flitCrcError t k fl crcBad => Sys2Proof.Machine.execFlitCrcError t k fl crcBad s
  | .linkProgressTimeout t k => Sys2Proof.Machine.execLinkProgressTimeout t k s
  | .linkTrainingLoss t k => Sys2Proof.Machine.execLinkTrainingLoss t k s
  | .linkTrainingEnd t k res => Sys2Proof.Machine.execLinkTrainingEnd t k res s
  | .linkRetryTimer t k => Sys2Proof.Machine.execLinkRetryTimer t k s
  | .retrain ag t k => Sys2Proof.Machine.execRetrain ag t k s
  | .eseqGapTimeout t src vc => Sys2Proof.Machine.execEseqGapTimeout t src vc s
  | .syncExchangeDue t => Sys2Proof.Machine.execSyncExchangeDue t s
  | .syncTimeout t => Sys2Proof.Machine.execSyncTimeout t s
  | .mirrorRequestTimeout t => Sys2Proof.Machine.execMirrorRequestTimeout t s
  | .dualRailCodeError t site xfer => Sys2Proof.Machine.execDualRailCodeError t site xfer s
  | .handshakeStall t site => Sys2Proof.Machine.execHandshakeStall t site s
  | .patrolScrubRead t r => Sys2Proof.Machine.execPatrolScrubRead t r s
  | .lostBlockClear ag t v => Sys2Proof.Machine.execLostBlockClear ag t v s
  | .faultRecordClear ag t p => Sys2Proof.Machine.execFaultRecordClear ag t p s
  | .unack ag t => Sys2Proof.Machine.execUnack ag t s
  | .mailboxSend ag m v => Sys2Proof.Machine.execMailboxSend ag m v s
  | .mailboxSendEnd ag m v => Sys2Proof.Machine.execMailboxSendEnd ag m v s
  | .mailboxAck ag m v => Sys2Proof.Machine.execMailboxAck ag m v s
  | .rrst ag m => Sys2Proof.Machine.execRrst ag m s
  | .lockRead ag n => Sys2Proof.Machine.execLockRead ag n s
  | .lockRelease ag t v => Sys2Proof.Machine.execLockRelease ag t v s
  | .lockForce ag t v => Sys2Proof.Machine.execLockForce ag t v s
  | .sequencerBoundary n pins => Sys2Proof.Machine.execSequencerBoundary n pins s
  | .sequencerStallLimit n => Sys2Proof.Machine.execSequencerStallLimit n s
  | .sequencerStart ag n => Sys2Proof.Machine.execSequencerStart ag n s
  | .sequencerStop ag n => Sys2Proof.Machine.execSequencerStop ag n s
  | .flushtx ag n => Sys2Proof.Machine.execFlushtx ag n s
  | .flushrx ag n => Sys2Proof.Machine.execFlushrx ag n s
  | .sequencerPush ag n v => Sys2Proof.Machine.execSequencerPush ag n v s
  | .sequencerPop ag n => Sys2Proof.Machine.execSequencerPop ag n s
  | .sequencerProgramWrite ag n off v => Sys2Proof.Machine.execSequencerProgramWrite ag n off v s
  | .sequencerFreeze ag t v => Sys2Proof.Machine.execSequencerFreeze ag t v s
  | .timerCompareWrite ag n v => Sys2Proof.Machine.execTimerCompareWrite ag n v s
  | .timerCompareWriteImmediate ag n v => Sys2Proof.Machine.execTimerCompareWriteImmediate ag n v s
  | .timerCompareMatch n => Sys2Proof.Machine.execTimerCompareMatch n s
  | .captureEdge n rising => Sys2Proof.Machine.execCaptureEdge n rising s
  | .captureSnapshot ag n => Sys2Proof.Machine.execCaptureSnapshot ag n s
  | .blankingWindowEnd n => Sys2Proof.Machine.execBlankingWindowEnd n s
  | .carrierZero p => Sys2Proof.Machine.execCarrierZero p s
  | .carrierTop p => Sys2Proof.Machine.execCarrierTop p s
  | .referenceChange p => Sys2Proof.Machine.execReferenceChange p s
  | .deadTimeEnd p dt => Sys2Proof.Machine.execDeadTimeEnd p dt s
  | .trip p active => Sys2Proof.Machine.execTrip p active s
  | .force ag p => Sys2Proof.Machine.execForce ag p s
  | .tripclr ag p => Sys2Proof.Machine.execTripclr ag p s
  | .pwmCommit ag p => Sys2Proof.Machine.execPwmCommit ag p s
  | .pwmStart ag p => Sys2Proof.Machine.execPwmStart ag p s
  | .pwmStop ag p => Sys2Proof.Machine.execPwmStop ag p s
  | .pwmPeriodWrite ag p v => Sys2Proof.Machine.execPwmPeriodWrite ag p v s
  | .tapReset => Sys2Proof.Machine.execTapReset s
  | .irUpdate code => Sys2Proof.Machine.execIrUpdate code s
  | .daccCapture => Sys2Proof.Machine.execDaccCapture s
  | .debugRead addr consume => Sys2Proof.Machine.execDebugRead addr consume s
  | .debugWrite addr v => Sys2Proof.Machine.execDebugWrite addr v s
  | .debugAccessComplete => Sys2Proof.Machine.execDebugAccessComplete s
  | .dstatUpdate v => Sys2Proof.Machine.execDstatUpdate v s
  | .halt ag t v => Sys2Proof.Machine.execHalt ag t v s
  | .resume ag t v => Sys2Proof.Machine.execResume ag t v s
  | .step ag t v => Sys2Proof.Machine.execStep ag t v s
  | .haltTakesEffect c => Sys2Proof.Machine.execHaltTakesEffect c s
  | .counterClaim ag t idx => Sys2Proof.Machine.execCounterClaim ag t idx s
  | .counterRelease ag t idx => Sys2Proof.Machine.execCounterRelease ag t idx s
  | .counterWrite ag t idx v => Sys2Proof.Machine.execCounterWrite ag t idx v s
  | .snapshotNow ag t p => Sys2Proof.Machine.execSnapshotNow ag t p s
  | .snapshotArm ag t p => Sys2Proof.Machine.execSnapshotArm ag t p s
  | .snapshotDue t p => Sys2Proof.Machine.execSnapshotDue t p s
  | .samplerClaim ag t e => Sys2Proof.Machine.execSamplerClaim ag t e s
  | .samplerRelease ag t e => Sys2Proof.Machine.execSamplerRelease ag t e s
  | .sampleRemove ag t e n => Sys2Proof.Machine.execSampleRemove ag t e n s
  | .powerDown ag t v => Sys2Proof.Machine.execPowerDown ag t v s
  | .powerUp ag t v => Sys2Proof.Machine.execPowerUp ag t v s
  | .remoteWakeRequest t => Sys2Proof.Machine.execRemoteWakeRequest t s
  | .powerAcknowledge t d level => Sys2Proof.Machine.execPowerAcknowledge t d level s
  | .powerAckTimeout t d => Sys2Proof.Machine.execPowerAckTimeout t d s
  | .wakeComplete t d ok => Sys2Proof.Machine.execWakeComplete t d ok s
  | .parcelSlotStart t e => Sys2Proof.Machine.execParcelSlotStart t e s
  | .malformedFlit t k fl => Sys2Proof.Machine.execMalformedFlit t k fl s

end Sys2Proof.Machine
end

