-- ==== Sys2Proof/Machine/Idle.lean ====
section
/-! DEFINITION. What the block does while no command waits: one edge of the reference on every tile, and the status words that change
go to tile 0 (notes/assumptions/3.md). -/
namespace Sys2Proof.Machine

/-- A CTRL flit that carries tile `t`'s status words to the mirrors of tile 0 (15 R528), where they have changed. -/
def mirrorStatus (s : State) (t : Nat) : State :=
  let w := statusOf s t
  if w = (getTile s t).mirSent then s
  else
    match sendFlit s t { ctrlFlitOf ctlMirror 0 t 0 with
        len := 12, payload := BitVec.ofNat 256 (w.1.toNat + w.2.1.toNat * 2 ^ 32 + w.2.2.toNat * 2 ^ 64) } with
    | (s, true) => modTile s t fun x => { x with mirSent := w }
    | (_, false) => s

/-- One edge of the reference on every tile (02 R56), the unloads that waited (03 R113), and the mirrored status of every tile but tile 0; in
cluster reset nothing. -/
def idle (s : State) : State :=
  if !s.begun then s
  else
    let s := (List.range (nFn s)).foldl leaveDone ((tilesOf s).foldl tickTile s)
    ((tilesOf s).filter fun t => t ≠ 0).foldl mirrorStatus s

end Sys2Proof.Machine
end

