-- ==== Sys2Proof/WellFormed.lean ====
section
/-! DEFINITION. Well-formed commands: every number inside the range that the spec gives its kind (01 R34 to R40), every flit of the
type its command names. -/
namespace Sys2Proof

/-- A requester's number is one the spec gives (00 R8, 04 R129). -/
def Agent.wf : Agent → Bool
  | .ctx c => decide (c < 2048)
  | .host r => decide (r < 32)
  | .dbg _ => true

/-- The sizes of a host transfer (15 R517). -/
def sizeOk (n : Nat) : Bool := [1, 2, 4, 8].contains n

/-- Local numbers of those who wait at a bank. -/
def Waiter.wf : Waiter → Bool
  | .agent ag => ag.wf
  | .portRx p => decide (p < 8)
  | .portTx p => decide (p < 8)

/-- Local numbers of the entries held in two copies (01 R34, 11 R412, 13 R463). -/
def CopySite.wf : CopySite → Bool
  | .staged c _ => decide (c < 2048)
  | .queued p q _ => decide (p < 8) && decide (q < 8)
  | .message m _ => decide (m < 32)
  | .replay k _ => decide (k < 4)
  | .held src vc _ => decide (src < 8) && decide (vc < 4)

/-- Local numbers of the units that a fault can strike (01 R34). -/
def FaultSite.wf : FaultSite → Bool
  | .engine e c => decide (e < 16) && decide (c < 2048)
  | .rom e c => decide (e < 16) && decide (c < 2048)
  | .snapshot e c => decide (e < 16) && decide (c < 2048)
  | .bank l => l.all Waiter.wf
  | .hostPort ag => ag.wf
  | .portRx p => decide (p < 8)
  | .portTx p => decide (p < 8)
  | .pair k => decide (k < 8)
  | .events n _ => decide (n < 1024)
  | .sequencer n => decide (n < 32)
  | .pwm p => decide (p < 8)
  | .link k => decide (k < 4)
  | .security => true

/-- Domains, links, and tiles of a start are ones that exist, and each read of the key port has its answer (03 R106, 04 R134). -/
def StartEnv.wf (env : StartEnv) : Bool :=
  env.acks.all (fun d => decide (d < 80)) && decide (env.answers.length = 37) && env.links.all (fun l => decide (l.1 < 32)) &&
  env.synced.all (fun t => decide (t < 8))

/-- Opcodes that the opcode map assigns, and the customer range (06 R248). -/
def assigned (op : Nat) : Bool :=
  decide (op ≤ 0x14) || op == 0x18 || op == 0x19 || decide (0x20 ≤ op ∧ op ≤ 0x2E) || decide (0x40 ≤ op ∧ op ≤ 0x46) ||
  decide (0x50 ≤ op ∧ op ≤ 0x53) || decide (0x60 ≤ op ∧ op ≤ 0x6C) || decide (0x80 ≤ op ∧ op ≤ 0x85) ||
  decide (0x90 ≤ op ∧ op ≤ 0x95) || decide (0xA0 ≤ op ∧ op ≤ 0xA8) || decide (0xB0 ≤ op ∧ op ≤ 0xB3) ||
  decide (0xC0 ≤ op ∧ op ≤ 0xC2) || decide (0xE0 ≤ op)

/-- A well-formed command. -/
def wf : Instr → Bool
  | .clusterReset | .startComplete | .hostResponseTaken | .hostResponseSlow | .nvmCommandIssue | .nvmCommandDone
  | .nvmCommandTimeout | .reloadStart | .reloadComplete _ | .keyPortAcknowledge _ _ | .keyPortTimeout | .keyPortTestAssert
  | .keyPortTestDeassert | .challengeReady | .challengeExpired | .unlockVerifyComplete | .unlockLifeExpired
  | .unlockWaitElapsed | .sealComplete | .tapReset | .irUpdate _ | .daccCapture | .debugRead _ _ | .debugWrite _ _
  | .debugAccessComplete | .dstatUpdate _ => true
  | .startSequence env => env.wf
  | .registerWrite ag _ _ | .readClear ag _ | .nvmPortAcquire ag | .nvmPortRelease ag | .nvmReadPage ag _
  | .nvmProgramPage ag _ | .nvmEraseSector ag _ | .chal ag | .unlockSubmit ag _ | .relock ag | .sealRequest ag _ => ag.wf
  | .hostRead rid _ _ size | .hostWrite rid _ _ size _ => decide (rid < 32) && sizeOk size
  | .referenceLost t | .referenceOutOfRange t | .referenceResumed t | .rateWindowEnd t | .syncExchangeDue t | .syncTimeout t
  | .mirrorRequestTimeout t | .remoteWakeRequest t => decide (t < 8)
  | .patrolScrubRead t r => decide (t < 8) && r.copies.all CopySite.wf
  | .tmrDadjWrite ag t _ | .paceCtlWrite ag t _ | .rstmin ag t | .doorbell ag t _ | .lostBlockClear ag t _ | .unack ag t
  | .lockRelease ag t _ | .lockForce ag t _ | .sequencerFreeze ag t _ | .halt ag t _ | .resume ag t _ | .step ag t _
  | .powerDown ag t _ | .powerUp ag t _ => ag.wf && decide (t < 8)
  | .paceWindowEnd t q0 q1 q2 q3 => decide (t < 8) && decide (q0 < 1024) && decide (q1 < 1024) && decide (q2 < 1024) && decide (q3 < 1024)
  | .functionEnable ag f | .functionDisable ag f | .functionReload ag f _ | .functionUnload ag f => ag.wf && decide (f < 64)
  | .unloadZeroFillComplete f | .drainComplete f | .drainLimitExpired f => decide (f < 64)
  | .grantChange ag p _ | .kick ag p | .watchdogConfigWrite ag p _ => ag.wf && decide (p < 16)
  | .tagGroupRebuild t g => decide (t < 8) && decide (g < 1024)
  | .eventPresentation c | .accessComplete c | .storeComplete c | .commitReleaseEntry c | .add c _ | .sub c _ | .and c _
  | .or c _ | .xor c _ | .andn c _ | .mul c _ | .mulhu c _ | .min c _ | .max c _ | .minu c _ | .maxu c _ | .adds c _
  | .subs c _ | .not c _ | .mov c _ | .addi c _ | .andi c _ | .ori c _ | .xori c _ | .muli c _ | .li c _ | .liu c _ | .shl c _
  | .shr c _ | .sar c _ | .rol c _ | .shli c _ | .shri c _ | .sari c _ | .roli c _ | .lget c _ | .lput c _ | .dup c _
  | .bswap c _ | .clz c _ | .popc c _ | .perm c _ | .ceq c _ | .cne c _ | .clt c _ | .cle c _ | .cltu c _ | .cleu c _
  | .cany c _ | .ceqi c _ | .cnei c _ | .clti c _ | .cltui c _ | .ld8 c _ | .ld16 c _ | .ld32 c _ | .ld64 c _ | .ld128 c _
  | .lds8 c _ | .lds16 c _ | .lds32 c _ | .st8 c _ | .st16 c _ | .st32 c _ | .st64 c _ | .st128 c _ | .bz c _ | .bnz c _
  | .j c _ | .call c _ | .jr c _ | .callr c _ | .rmov c _ _ | .rfill c _ _ | .rcmp c _ _ | .rscan c _ _ | .rcrc c _ _
  | .rsum c _ _ | .commit c _ | .wait c _ | .fence c _ | .trap c _ | .brk c _ | .rfe c _ | .mfs c _ | .mtsSw c _ | .mtsTsbp c _
  | .wdkick c _ | .rddat c _ | .psqw c _ | .psqr c _ | .schr c _ | .schrStatus c _ | .schw c _ | .crc32 c _ | .crc16 c _
  | .csum16 c _ | .pairedWord c _ | .customerInstruction c _ _ | .haltTakesEffect c => decide (c < 2048)
  | .ctxSwWrite ag c _ | .ctxTsbpWrite ag c _ | .ctxVdata3Write ag c _ => ag.wf && decide (c < 2048)
  | .watchdogExpired p => decide (p < 16)
  | .exceptionRecordClear ag t p | .eventClaim ag t p | .eventHostComplete ag t p _ | .faultRecordClear ag t p
  | .snapshotNow ag t p | .snapshotArm ag t p => ag.wf && decide (t < 8) && decide (p < 16)
  | .pset ag t n | .pclr ag t n => ag.wf && decide (t < 8) && decide (n < 1024)
  | .frameReceiveStart p _ | .frameReceiveEnd p _ | .jabber p | .transmitFrameStart p | .transmitFrameEnd p | .linkUp p _
  | .linkDown p _ | .pauseRefreshDue p | .carrierZero p | .carrierTop p | .referenceChange p | .trip p _ => decide (p < 64)
  | .flowConsume ag p f _ => ag.wf && decide (p < 64) && decide (f < 8)
  | .transmitPost ag p _ | .flush ag p | .force ag p | .tripclr ag p | .pwmCommit ag p | .pwmStart ag p | .pwmStop ag p
  | .pwmPeriodWrite ag p _ => ag.wf && decide (p < 64)
  | .pauseExpired p q | .pauseWatchdog p q => decide (p < 64) && decide (q < 8)
  | .chunkComplete k | .chunkRelease k | .schussEgressStart k => decide (k < 64)
  | .idleFlit t k fl => decide (t < 8) && decide (k < 4) && decide (fl.typ = 0x0)
  | .writeFlit t k fl => decide (t < 8) && decide (k < 4) && decide (fl.typ = 0x1)
  | .readFlit t k fl => decide (t < 8) && decide (k < 4) && decide (fl.typ = 0x2)
  | .rdataFlit t k fl => decide (t < 8) && decide (k < 4) && decide (fl.typ = 0x3)
  | .doorbellFlit t k fl => decide (t < 8) && decide (k < 4) && decide (fl.typ = 0x4)
  | .mailboxFlit t k fl => decide (t < 8) && decide (k < 4) && decide (fl.typ = 0x5)
  | .kickFlit t k fl => decide (t < 8) && decide (k < 4) && decide (fl.typ = 0x6)
  | .mirwrFlit t k fl => decide (t < 8) && decide (k < 4) && decide (fl.typ = 0x7)
  | .mirreqFlit t k fl => decide (t < 8) && decide (k < 4) && decide (fl.typ = 0x8)
  | .mirdatFlit t k fl => decide (t < 8) && decide (k < 4) && decide (fl.typ = 0x9)
  | .syncFlit t k fl => decide (t < 8) && decide (k < 4) && decide (fl.typ = 0xA)
  | .ctrlFlit t k fl => decide (t < 8) && decide (k < 4) && decide (fl.typ = 0xB)
  | .nakFlit t k fl => decide (t < 8) && decide (k < 4) && decide (fl.typ = 0xC)
  | .flitCrcError t k _ _ | .linkProgressTimeout t k | .linkTrainingLoss t k | .linkTrainingEnd t k _ | .linkRetryTimer t k
  | .malformedFlit t k _ => decide (t < 8) && decide (k < 4)
  | .retrain ag t k => ag.wf && decide (t < 8) && decide (k < 4)
  | .eseqGapTimeout t src vc => decide (t < 8) && decide (src < 8) && decide (vc < 4)
  | .dualRailCodeError t site _ | .handshakeStall t site => decide (t < 8) && site.wf
  | .mailboxSend ag m _ | .mailboxSendEnd ag m _ | .mailboxAck ag m _ | .rrst ag m => ag.wf && decide (m < 256)
  | .lockRead ag n => ag.wf && decide (n < 512)
  | .sequencerBoundary n _ | .sequencerStallLimit n => decide (n < 256)
  | .sequencerStart ag n | .sequencerStop ag n | .flushtx ag n | .flushrx ag n | .sequencerPush ag n _ | .sequencerPop ag n
  | .sequencerProgramWrite ag n _ _ => ag.wf && decide (n < 256)
  | .timerCompareWrite ag n _ | .timerCompareWriteImmediate ag n _ | .captureSnapshot ag n => ag.wf && decide (n < 128)
  | .timerCompareMatch n | .captureEdge n _ | .blankingWindowEnd n => decide (n < 128)
  | .deadTimeEnd p dt => decide (p < 64) && decide (dt < 65536)
  | .counterClaim ag t i | .counterRelease ag t i | .counterWrite ag t i _ => ag.wf && decide (t < 8) && decide (i < 144)
  | .snapshotDue t p => decide (t < 8) && decide (p < 16)
  | .samplerClaim ag t e | .samplerRelease ag t e => ag.wf && decide (t < 8) && decide (e < 16)
  | .sampleRemove ag t e n => ag.wf && decide (t < 8) && decide (e < 16) && decide (n < 128)
  | .powerAcknowledge t d _ | .powerAckTimeout t d | .wakeComplete t d _ => decide (t < 8) && decide (d < 10)
  | .parcelSlotStart t e => decide (t < 8) && decide (e < 16)
  | .reservedOpcode c op _ => decide (c < 2048) && (!assigned op.toNat)

end Sys2Proof
end

