-- ==== Sys2Proof/Safety.lean ====
section
/-! DEFINITION. The words that statements use: a safe step, the canonical form of the state's tables, a context that is about to run an
instruction, and what an instruction that is complete leaves alone. -/
namespace Sys2Proof.Machine

/-- The block goes on from `s`: its next step answers a next state. -/
def Safe (s : State) : Prop := ∃ s', step s = .next s'

/-! ## The canonical form of the tables -/

/-- Keys above `lo` strictly rising, no entry equal to what its key reads as unlisted. -/
def rwfFrom (d : Nat → Word) : Nat → Sparse Word → Bool
  | _, [] => true
  | lo, (k, v) :: rest => decide (lo ≤ k) && decide (v ≠ d k) && rwfFrom d (k + 1) rest

/-- The canonical form of a table of registers. -/
def rwf (m : Sparse Word) : Bool := rwfFrom regReset 0 m

/-- The canonical form of a memory whose unlisted bytes read as `d`. -/
def Memory.wf (d : Byte) (m : List Host.Cell) : Bool := swf d m

/-- Every table and memory of the state is in its canonical form. -/
structure Canonical (s : State) : Prop where
  mem : Memory.wf 0 s.mem = true
  code : Memory.wf 0 s.code = true
  flash : Memory.wf 0xFF s.flash = true
  regs : rwf s.regs = true
  staged : rwf s.staged = true
  tiles : swf {} s.tiles = true
  ctxs : swf {} s.ctxs = true
  engs : swf {} s.engs = true
  srcs : swf {} s.srcs = true
  ports : swf {} s.ports = true
  flows : swf {} s.flows = true
  txqs : swf {} s.txqs = true
  pairs : swf {} s.pairs = true
  seqs : swf {} s.seqs = true
  tmrs : swf {} s.tmrs = true
  pwms : swf {} s.pwms = true
  mbxs : swf {} s.mbxs = true
  locks : swf 0 s.locks = true
  pmcs : swf {} s.pmcs = true
  smps : swf {} s.smps = true
  links : swf {} s.links = true
  codeTag : swf {} s.codeTag = true
  wstore : swf {} s.wstore = true
  dec : swf {} s.dec = true
  mirror : swf {} s.mirror = true
  fns : swf {} s.fns = true

/-! ## Instructions -/

/-- Context `c` is about to run the instruction at its program counter: its engine's choice is it and no halt waits (05 R186, 18 R611),
its parcel may fetch the word (05 R223), the code block is good (13 R481), no execution comparator takes the fetch (18 R619), and on a
slot-mode engine the fetch ends within the slot's first 120 ns (04 R171). -/
structure Ready (s : State) (c : Nat) : Prop where
  runs : mayRun s c = true
  fetch : fetchOk s c = true
  good : isBad s (c / 256) (posOf (fetchBlock s c)) = false
  watch : (getCtx s c).mid = true ∨ watchExec s c = (s, false)
  time : (getCtx s c).mid = true ∨ slotTime s c 32 = true

/-- The address of the configuration register of a performance counter. -/
def isPmcCfg (a : Nat) : Prop := ∃ t i, i < 144 ∧ a = ta t (0x5A0004 + i * 0x20)

/-- From `s` to `t` nothing has happened but bookkeeping around an instruction: contexts were counted and chosen, performance counters,
samplers and their event messages moved; every memory, unit, function and every other register is as it was. -/
structure Bookkeeping (s t : State) : Prop where
  rest : t = { s with fresh := t.fresh, regs := t.regs, tiles := t.tiles, ctxs := t.ctxs, srcs := t.srcs, pmcs := t.pmcs, smps := t.smps }
  regs : ∀ a, rg t a = rg s a ∨ isPmcCfg a
  tiles : ∀ k, { getTile t k with tick := (getTile s k).tick, req := (getTile s k).req, pcmd := (getTile s k).pcmd } = getTile s k
  srcs : ∀ k, { getSrc t k with pend := (getSrc s k).pend, miss := (getSrc s k).miss, edge := (getSrc s k).edge } = getSrc s k

/-- Every context but `c` keeps all it holds; its engine may have switched from or to it. -/
def OthersKeep (s t : State) (c : Nat) : Prop :=
  ∀ d, d ≠ c → let x := getCtx s d; { getCtx t d with st := x.st, rep := x.rep, slotHeld := x.slotHeld } = x

/-- As `OthersKeep`, after an access has completed: a context that waited for a transaction may go on (05 R200). -/
def OthersGoOn (s t : State) (c : Nat) : Prop :=
  ∀ d, d ≠ c → let x := getCtx s d
    { getCtx t d with st := x.st, rep := x.rep, slotHeld := x.slotHeld, wait := x.wait } = x ∧
    ((getCtx t d).wait = x.wait ∨ x.wait = .transaction ∧ (getCtx t d).wait = .none)

/-- Of context `c` only registers, the program counter and what the tile keeps for running it may differ: status word, exception words,
TSBP, traverse buffer, posted stores, commit snapshot and the rest are as they were. -/
def ProgramOnly (s t : State) (c : Nat) : Prop :=
  let x := getCtx s c
  { getCtx t c with v := x.v, pc := x.pc, st := x.st, got := x.got, micro := x.micro, mid := x.mid, ran := x.ran, haltReq := x.haltReq,
                    stepping := x.stepping, stepEv := x.stepEv, rep := x.rep, slotHeld := x.slotHeld } = x

/-- An instruction of context `c` that is complete has changed no register but those of `ns`, and the program counter, which stands at
`pc`. -/
structure RegistersOnly (s t : State) (c : Nat) (ns : List Nat) (pc : BitVec 20) : Prop where
  book : Bookkeeping s t
  others : OthersKeep s t c
  program : ProgramOnly s t c
  regs : ∀ m, m ∉ ns → getV t c m = getV s c m
  pc : (getCtx t c).pc = pc

/-- Context `c` stalls inside its instruction and waits for `w`, having changed nothing else (05 R183, R190). -/
structure Awaits (s t : State) (c : Nat) (w : Wait) : Prop where
  book : Bookkeeping s t
  others : OthersKeep s t c
  self : getCtx t c = { getCtx s c with st := .stalled, wait := w, mid := true, ran := (getCtx t c).ran, rep := (getCtx t c).rep,
                                        slotHeld := (getCtx t c).slotHeld }

/-- The instruction in progress of context `c` has not yet read `n` bytes at `a`. -/
def Unanswered (s : State) (c a n : Nat) : Prop := ((getCtx s c).got.find? fun g => g.1.toNat == a && g.2.1 == n) = none

/-- The instruction in progress of context `c` has read `n` bytes at `a`: they are `d`. -/
def Answered (s : State) (c a n : Nat) (d : DWord) : Prop :=
  ((getCtx s c).got.find? fun g => g.1.toNat == a && g.2.1 == n).map (fun g => g.2.2) = some (some d)

/-- As `ProgramOnly`, but for posted stores, traverse-buffer entries and SW.RPT, which a storing or repeating instruction moves too. -/
def StoresOnly (s t : State) (c : Nat) : Prop :=
  let x := getCtx s c
  { getCtx t c with v := x.v, pc := x.pc, st := x.st, got := x.got, micro := x.micro, mid := x.mid, ran := x.ran, haltReq := x.haltReq,
                    stepping := x.stepping, stepEv := x.stepEv, rep := x.rep, slotHeld := x.slotHeld, stores := x.stores, tb := x.tb,
                    rpt := x.rpt } = x

/-- A complete instruction that stores: registers but those of `ns` unchanged, memory and units too (a store is performed later). -/
structure StoresLater (s t : State) (c : Nat) (ns : List Nat) (pc : BitVec 20) : Prop where
  book : Bookkeeping s t
  others : OthersKeep s t c
  program : StoresOnly s t c
  regs : ∀ m, m ∉ ns → getV t c m = getV s c m
  pc : (getCtx t c).pc = pc

/-- A read of `n` bytes at `a` by context `c` is performed from good bytes of its own tile's buffer memory: its rights pass (04 R145), a
transaction is free (05 R200), its time lies in the slot (04 R171), no store of its own to these bytes is on its way (05 R204), the tag group
and the block are good, the block is not lost (14 R500). -/
structure BufferRead (s : State) (c a n : Nat) : Prop where
  tile : a / 0x1000000 = c / 256
  buffer : a % 0x1000000 < 0x400000
  allowed : checkAcc s (ctxAcc s c) a n false = 0
  time : slotTime s c (slotNs a) = true
  free : txnFree s c 1 = true
  alone : ∀ x ∈ (getCtx s c).stores, overlaps x.addr.toNat x.size a n = false
  settled : (getTile s (c / 256)).rebuild.contains (a % 0x1000000 / 4096) = false
  group : isBad s (c / 256) (tagPos + a % 0x1000000 / 4096) = false
  block : isBad s (c / 256) (blockOf a) = false
  kept : isLost s a = false

/-- A store of `n` bytes `v` at `a` by context `c` is posted: it is not one that is staged, its check passes, its time lies in the slot
(04 R171), the queue has room and `k` transactions are free (05 R200, R202). -/
structure PostedStore (s : State) (c a n v : Nat) (k : Nat := 1) : Prop where
  posted : isStaged c a = false
  allowed : (busWrite s (ctxAcc s c) a n v).2 = 0
  time : slotTime s c (slotNs a) = true
  room : (getCtx s c).stores.length + k ≤ 8
  free : txnFree s c k = true

/-- A store on its way, or merged (07 R268), goes to good bytes of one doubleword of its own tile's buffer memory, and its check passes. -/
structure BufferStore (s : State) (c : Nat) (x : Store) : Prop where
  tile : x.addr.toNat / 0x1000000 = c / 256
  buffer : x.addr.toNat % 0x1000000 < 0x400000
  width : 1 ≤ x.size ∧ x.addr.toNat % 8 + x.size ≤ 8
  allowed : checkAcc s (ctxAcc s c) x.addr.toNat (if [1, 2, 4, 8].contains x.size && x.addr.toNat % x.size == 0 then x.size else 1) true = 0
  group : isBad s (c / 256) (tagPos + x.addr.toNat % 0x1000000 / 4096) = false
  block : isBad s (c / 256) (blockOf x.addr.toNat) = false

/-- Every store that context `c` has on its way is such a store. -/
def BufferStores (s : State) (c : Nat) : Prop := ∀ x ∈ (getCtx s c).stores, BufferStore s c x

/-- Context `c`, with no store on its way, takes an exception. With SW.EXL 0 and TSBOK, where the block's words can be read, it is STALLED in an
entry that ACCESS_COMPLETE finishes (09 R346). With SW.EXL 1 or without TSBOK the activation ends with what the commit snapshot holds, and
the parcel's record, where it is free, holds the exception (09 R353, R356). No byte of memory changes. -/
structure Excepts (s t : State) (c cause det : Nat) (addr : Word) (epc : BitVec 20) : Prop where
  enters : (getCtx s c).exl = false → tsbOk s c = true → s.badBlk = [] → powered s (c / 256) domBUF = true →
    anyLost s ((getCtx s c).tsbp.toNat + 0x18) 8 = false →
    let x := getCtx s c
    let y := getCtx t c
    y.entering = some { cause, detail := det, addr, epc, vec := none } ∧ y.exent = true ∧
      y.wait = .entry (slotDue s c x.tsbp.toNat) ∧ y.st = .stalled ∧ y.v = x.v ∧ y.pc = x.pc ∧ y.sw = x.sw ∧ y.tb = x.tb ∧
      y.snap = x.snap ∧ y.tsbp = x.tsbp ∧ t.mem = s.mem ∧ OthersKeep s t c
  ends : (getCtx s c).exl = true ∨ tsbOk s c = false → oldestHeld s c = none →
    let x := getCtx s c
    let y := getCtx t c
    y.act = false ∧ y.v = x.snap.v ∧ y.pc = x.snap.pc ∧ y.priv = x.snap.priv ∧ y.exl = x.snap.exl ∧ y.ie = x.snap.ie ∧ y.rpt = x.snap.rpt ∧
      y.tb = [] ∧ (x.st ≠ .halted → x.st ≠ .locked → y.st = .idle) ∧ t.mem = s.mem ∧ OthersKeep s t c
  told : (getCtx s c).exl = true ∨ tsbOk s c = false → ctxParcel s c < 16 → c < 2048 →
    let a := ta (c / 256) (0x500800 + ctxParcel s c * 16)
    bit (rg s a) 31 = false →
      rg t a = fields [(31, 1, 1), (28, 3, 1), (12, 8, cause), (0, 11, c)] ∧ rg t (a + 4) = epc.setWidth 32 ∧
      rg t (a + 8) = BitVec.ofNat 32 det ∧ rg t (a + 12) = addr

/-! ## Register accesses -/

/-- The write of `v` to the register at `addr` by agent `ag` reaches its tile, and the checks of 00 R19 to R22 and 04 R145 pass. -/
def MayWrite (s : State) (ag : Agent) (addr : Nat) (v : Word) : Prop :=
  reaches s ag (addr / 0x1000000) = true ∧ checkAcc s (agentAcc s ag addr v) addr 4 true = 0

/-- The same of a read. -/
def MayRead (s : State) (ag : Agent) (addr : Nat) : Prop :=
  reaches s ag (addr / 0x1000000) = true ∧ checkAcc s (agentAcc s ag addr 0) addr 4 false = 0

/-- The access was performed: it is not answered as refused. -/
def Accepted (t : State) : Prop := t.result.refused = false

/-- The elements of width `w` of a register are those of `g`. -/
def Elems (w : Nat) (x : Vec) (g : Nat → BitVec w) : Prop := ∀ k, k < 128 / w → elem x w k = g k

/-- No comparator of tile `t` is enabled (18 R618). -/
def NoWatch (s : State) (t : Nat) : Prop := ∀ n, n < 16 → bit (bwCfg s t n) 31 = false

/-! ## Frames of the block's units -/

/-- The address is one of a tile's fault registers: status, log, records, counts. -/
def isFlt (a : Nat) : Prop := ∃ t o, 0x580000 ≤ o ∧ o < 0x580500 ∧ a = ta t o

/-- From `u` to `t` nothing has changed but the registers of `ch`, the pending bits of event sources and what an event raises in the power
controller, performance counters and samplers, the record of the last access, and the counter behind free values. -/
structure Elsewhere (u t : State) (ch : Nat → Prop) : Prop where
  rest : t = { u with fresh := t.fresh, regs := t.regs, tiles := t.tiles, srcs := t.srcs, pmcs := t.pmcs, smps := t.smps, result := t.result }
  regs : ∀ a, ¬ch a → rg t a = rg u a ∨ isPmcCfg a
  tiles : ∀ k, { getTile t k with req := (getTile u k).req, pcmd := (getTile u k).pcmd } = getTile u k
  srcs : ∀ k, (getSrc t k).act = (getSrc u k).act ∧ (getSrc t k).loaded = (getSrc u k).loaded ∧ (getSrc t k).fn = (getSrc u k).fn

/-- No register. -/
def noReg (_ : Nat) : Prop := False

/-! ## Flits -/

/-- A sequenced flit that tile `t` accepts on link `k` and delivers at once: its link and end-to-end sequence numbers are those expected,
nothing is held for its source and no flit waits for room in the tile's resequencing store (13 R464, R469). -/
structure InOrder (s : State) (t k : Nat) (fl : Flit) : Prop where
  runs : tileRuns s t = true
  port : k < 4
  live : linkLive s t k = true
  keyed : keyed s t fl = true
  lseq : fl.lseq = (getLink s (t * 4 + k)).expect
  dst : fl.dst.toNat = t
  order : bypasses fl = false
  eseq : getEseq s t (eseqKey fl) = { expect := fl.eseq }
  none : rxWaiting s t = 0

/-- The flit has been accepted: the next numbers are expected. -/
def Taken (u : State) (t k : Nat) (fl : Flit) : Prop :=
  (getLink u (t * 4 + k)).expect = fl.lseq + 1 ∧ (getEseq u t (eseqKey fl)).expect = fl.eseq + 1

/-- The flits that link `j` of tile `t` has sent and not yet seen acknowledged, or has still to send. -/
def onLink (s : State) (t j : Nat) : List Flit := (getLink s (t * 4 + j)).replay.map Prod.fst ++ (getLink s (t * 4 + j)).queue

/-- An access of `n` bytes at `a` on tile `t` with stamp `x` passes its checks, and the tag group and block that it meets are good. -/
structure GoodBuffer (s : State) (x : Acc) (t a n : Nat) (wr : Bool) : Prop where
  tile : a / 0x1000000 = t
  buffer : a % 0x1000000 < 0x400000
  allowed : checkAcc s x a n wr = 0
  settled : (getTile s t).rebuild.contains (a % 0x1000000 / 4096) = false
  group : isBad s t (tagPos + a % 0x1000000 / 4096) = false
  block : isBad s t (blockOf a) = false

end Sys2Proof.Machine
end

