-- ==== Sys2Proof/Certificates/Slice0/Obligations.lean ====
section
/-! DEFINITION. The statements for the provers. -/

open Sys2Proof Sys2Proof.Machine

/-! ## The queue and the step -/

/-- The block takes commands in order: a step with a command at the front of the queue is `exec` of that command on the state with the
queue's rest, and with an empty queue one edge of the reference passes (the model's choice: notes/assumptions/3.md). Every command completes: in every state
`exec` answers a next state. -/
def Obligations.StepPerformsFrontCommand : Prop :=
  (∀ (i : Instr) (rest : List Instr) (s : State), step { s with pending := i :: rest } = exec i { s with pending := rest }) ∧
  (∀ s : State, s.pending = [] → step s = .next (idle s)) ∧
  ∀ (i : Instr) (s : State), ∃ t, exec i s = .next t

/-- Every table and memory of the state keeps its canonical form over every step, whatever command waits and also where none does; so
that two states which read alike everywhere are equal. -/
def Obligations.CanonicalFormKeptByEveryStep : Prop :=
  ∀ s s' : State, Canonical s → step s = .next s' → Canonical s'

/-- The state after reset has every table and memory in its canonical form. -/
def Obligations.CanonicalFormAtReset : Prop := Canonical State.reset

/-! ## Instructions that write one register -/

/-- 07 R256, the operations marked E: each element of rd at width w is the operation's value on the elements of ra and rb, modulo 2^w;
no other register and no memory changes; the program counter moves by 4. -/
def Obligations.ElementOperationsWriteEveryElement : Prop :=
  ∀ (s : State) (c : Nat) (f : BitVec 23), Ready s c → eOf f ≤ 4 → fnOf f = 0 →
    ∀ x ∈ ([(.add c f, fun _ a b => a + b), (.sub c f, fun _ a b => a - b), (.mul c f, fun _ a b => a * b),
        (.mulhu c f, fun w a b => BitVec.ofNat w (a.toNat * b.toNat / 2 ^ w)),
        (.min c f, fun _ a b => if a.toInt ≤ b.toInt then a else b), (.max c f, fun _ a b => if a.toInt ≤ b.toInt then b else a),
        (.minu c f, fun _ a b => if a.toNat ≤ b.toNat then a else b), (.maxu c f, fun _ a b => if a.toNat ≤ b.toNat then b else a),
        (.adds c f, fun w a b => if a.toNat + b.toNat ≤ 2 ^ w - 1 then a + b else BitVec.ofNat w (2 ^ w - 1)),
        (.subs c f, fun w a b => if b.toNat ≤ a.toNat then a - b else 0#w)] :
        List (Instr × ((w : Nat) → BitVec w → BitVec w → BitVec w))),
    ∃ t, exec x.1 s = .next t ∧ RegistersOnly s t c [rdOf f] ((getCtx s c).pc + 4) ∧
      Elems (widthOf (eOf f)) (getV t c (rdOf f)) fun k =>
        x.2 _ (elem (getV s c (raOf f)) _ k) (elem (getV s c (rbOf f)) _ k)

/-- 07 R256, the operations not marked E: they act on all 128 bits of ra and rb, E and FN being 0, and for NOT and MOV rb too. -/
def Obligations.LogicOperationsActOnAllBits : Prop :=
  ∀ (s : State) (c : Nat) (f : BitVec 23), Ready s c → eOf f = 0 → fnOf f = 0 →
    (∀ x ∈ ([(.and c f, fun a b => a && b), (.or c f, fun a b => a || b), (.xor c f, fun a b => a != b), (.andn c f, fun a b => a && !b)] :
        List (Instr × (Bool → Bool → Bool))),
      ∃ t, exec x.1 s = .next t ∧ RegistersOnly s t c [rdOf f] ((getCtx s c).pc + 4) ∧
        ∀ k, k < 128 → bit (getV t c (rdOf f)) k = x.2 (bit (getV s c (raOf f)) k) (bit (getV s c (rbOf f)) k)) ∧
    (rbOf f = 0 → ∀ x ∈ ([(.not c f, fun a => !a), (.mov c f, fun a => a)] : List (Instr × (Bool → Bool))),
      ∃ t, exec x.1 s = .next t ∧ RegistersOnly s t c [rdOf f] ((getCtx s c).pc + 4) ∧
        ∀ k, k < 128 → bit (getV t c (rdOf f)) k = x.2 (bit (getV s c (raOf f)) k))

/-- 07 R257: immediates act on the whole register, IMM15 sign-extended; LI and LIU load a constant. -/
def Obligations.ImmediateOperationsUseSignExtension : Prop :=
  ∀ (s : State) (c : Nat) (f : BitVec 23), Ready s c →
    ∀ x ∈ ([(.addi c f, getV s c (raOf f) + (f.setWidth 15).signExtend 128), (.andi c f, getV s c (raOf f) &&& (f.setWidth 15).signExtend 128),
        (.ori c f, getV s c (raOf f) ||| (f.setWidth 15).signExtend 128), (.xori c f, getV s c (raOf f) ^^^ (f.setWidth 15).signExtend 128),
        (.muli c f, getV s c (raOf f) * (f.setWidth 15).signExtend 128), (.li c f, (f.setWidth 19).signExtend 128),
        (.liu c f, BitVec.ofNat 128 ((f.setWidth 19).toNat * 2 ^ 13))] : List (Instr × Vec)),
    ∃ t, exec x.1 s = .next t ∧ RegistersOnly s t c [rdOf f] ((getCtx s c).pc + 4) ∧ getV t c (rdOf f) = x.2

/-- 07 R258, the shifts: element by element, by the element of rb modulo w, or by FN bits 6:0. -/
def Obligations.ShiftsMoveEveryElement : Prop :=
  ∀ (s : State) (c : Nat) (f : BitVec 23), Ready s c → eOf f ≤ 4 →
    let w := widthOf (eOf f)
    (fnOf f = 0 → ∀ x ∈ ([(.shl c f, fun _ a n => a <<< n), (.shr c f, fun _ a n => a >>> n), (.sar c f, fun _ a n => a.sshiftRight n),
        (.rol c f, fun _ a n => a.rotateLeft n)] : List (Instr × ((w : Nat) → BitVec w → Nat → BitVec w))),
      ∃ t, exec x.1 s = .next t ∧ RegistersOnly s t c [rdOf f] ((getCtx s c).pc + 4) ∧
        Elems w (getV t c (rdOf f)) fun k => x.2 w (elem (getV s c (raOf f)) w k) ((elem (getV s c (rbOf f)) w k).toNat % w)) ∧
    (rbOf f = 0 → fnOf f < 128 → ∀ x ∈ ([(.shli c f, fun w a n => if w ≤ n then 0#w else a <<< n),
        (.shri c f, fun w a n => if w ≤ n then 0#w else a >>> n),
        (.sari c f, fun w a n => if w ≤ n then a.sshiftRight (w - 1) else a.sshiftRight n),
        (.roli c f, fun w a n => a.rotateLeft (n % w))] : List (Instr × ((w : Nat) → BitVec w → Nat → BitVec w))),
      ∃ t, exec x.1 s = .next t ∧ RegistersOnly s t c [rdOf f] ((getCtx s c).pc + 4) ∧
        Elems w (getV t c (rdOf f)) fun k => x.2 w (elem (getV s c (raOf f)) w k) (fnOf f))

/-- 07 R258, lanes, bytes and bit counts. -/
def Obligations.LaneOperationsSelectAndCount : Prop :=
  ∀ (s : State) (c : Nat) (f : BitVec 23), Ready s c → eOf f ≤ 4 →
    let w := widthOf (eOf f)
    let a := getV s c (raOf f)
    let done (i : Instr) (p : Vec → Prop) : Prop :=
      ∃ t, exec i s = .next t ∧ RegistersOnly s t c [rdOf f] ((getCtx s c).pc + 4) ∧ p (getV t c (rdOf f))
    (rbOf f = 0 → fnOf f < 128 / w → fnOf f < 16 →
      done (.lget c f) (fun r => r = (elem a w (fnOf f)).setWidth 128) ∧
      done (.lput c f) (fun r => Elems w r fun k => if k = fnOf f then elem a w 0 else elem (getV s c (rdOf f)) w k) ∧
      done (.dup c f) (fun r => Elems w r fun _ => elem a w (fnOf f))) ∧
    (rbOf f = 0 → fnOf f = 0 →
      done (.bswap c f) (fun r => ∀ k j, k < 128 / w → j < w / 8 → elem r 8 (k * (w / 8) + j) = elem a 8 (k * (w / 8) + (w / 8 - 1 - j))) ∧
      done (.clz c f) (fun r => ∀ k, k < 128 / w → (elem r w k).toNat ≤ w ∧
        (∀ j, j < (elem r w k).toNat → (elem a w k).getLsbD (w - 1 - j) = false) ∧
        ((elem r w k).toNat < w → (elem a w k).getLsbD (w - 1 - (elem r w k).toNat) = true)) ∧
      done (.popc c f) (fun r => Elems w r fun k => BitVec.ofNat w ((List.range w).countP fun j => (elem a w k).getLsbD j))) ∧
    (eOf f = 0 → fnOf f = 0 →
      done (.perm c f) (fun r => ∀ j, j < 16 → elem r 8 j =
        let b := elem (getV s c (rbOf f)) 8 j
        if b.getLsbD 7 then 0 else elem a 8 (b.toNat % 16)))

/-- 07 R259: compares write 1 or 0 into the whole of rd. A register form with FN not 0 or a reserved E is undefined (class 2, detail 2). -/
def Obligations.ComparesWriteOneOrZero : Prop :=
  ∀ (s : State) (c : Nat) (f : BitVec 23), Ready s c →
    let w := widthOf (eOf f)
    let a := getV s c (raOf f)
    let b := getV s c (rbOf f)
    let imm : Vec := (f.setWidth 15).signExtend 128
    let holds (i : Instr) (p : Bool) : Prop :=
      ∃ t, exec i s = .next t ∧ RegistersOnly s t c [rdOf f] ((getCtx s c).pc + 4) ∧ getV t c (rdOf f) = if p then 1 else 0
    (eOf f ≤ 4 → fnOf f = 0 →
      holds (.ceq c f) (elem a w 0 = elem b w 0) ∧ holds (.cne c f) (elem a w 0 ≠ elem b w 0) ∧
      holds (.clt c f) ((elem a w 0).toInt < (elem b w 0).toInt) ∧ holds (.cle c f) ((elem a w 0).toInt ≤ (elem b w 0).toInt) ∧
      holds (.cltu c f) ((elem a w 0).toNat < (elem b w 0).toNat) ∧ holds (.cleu c f) ((elem a w 0).toNat ≤ (elem b w 0).toNat) ∧
      holds (.cany c f) (∃ k, k < 128 / w ∧ elem a w k = elem b w k)) ∧
    (4 < eOf f ∨ fnOf f ≠ 0 → (getCtx s c).stores = [] → ∀ i ∈ [Instr.ceq c f, .cne c f, .clt c f, .cle c f, .cltu c f, .cleu c f, .cany c f],
      ∃ t, exec i s = .next t ∧ Excepts s t c 2 2 0 (getCtx s c).pc) ∧
    holds (.ceqi c f) (a = imm) ∧ holds (.cnei c f) (a ≠ imm) ∧ holds (.clti c f) (a.toInt < imm.toInt) ∧
    holds (.cltui c f) (a.toNat < imm.toNat)

/-- 07 R274: checks over the first n bytes of rb, byte 0 first, without inversion; the rest of rd is zero. CRC-32 and CRC-16 are stated
bit by bit: each step shifts by one and adds the polynomial where the bit that leaves is 1. -/
def Obligations.CheckOperationsTakeBytesInOrder : Prop :=
  ∀ (s : State) (c : Nat) (f : BitVec 23), Ready s c → eOf f = 0 → 1 ≤ fnOf f % 32 → fnOf f % 32 ≤ 16 →
    let n := fnOf f % 32
    let byte (j : Nat) : Byte := elem (getV s c (rbOf f)) 8 j
    let done (i : Instr) (v : Vec) : Prop :=
      ∃ t, exec i s = .next t ∧ RegistersOnly s t c [rdOf f] ((getCtx s c).pc + 4) ∧ getV t c (rdOf f) = v
    let reflected (p : BitVec 32) (r : BitVec 32) (b : Byte) : BitVec 32 :=
      (List.range 8).foldl (fun r _ => if r.getLsbD 0 then (r >>> 1) ^^^ p else r >>> 1) (r ^^^ b.setWidth 32)
    let straight (r : BitVec 16) (b : Byte) : BitVec 16 :=
      (List.range 8).foldl (fun r _ => if r.getLsbD 15 then (r <<< 1) ^^^ 0x1021 else r <<< 1) (r ^^^ (b.setWidth 16) <<< 8)
    (fnOf f / 32 = 0 → done (.crc32 c f) (((List.range n).foldl (fun r j => reflected 0xEDB88320 r (byte j)) ((getV s c (raOf f)).setWidth 32)).setWidth 128)) ∧
    (fnOf f / 32 = 1 → done (.crc32 c f) (((List.range n).foldl (fun r j => reflected 0x82F63B78 r (byte j)) ((getV s c (raOf f)).setWidth 32)).setWidth 128)) ∧
    (fnOf f / 32 = 0 → done (.crc16 c f) (((List.range n).foldl (fun r j => straight r (byte j)) ((getV s c (raOf f)).setWidth 16)).setWidth 128)) ∧
    (fnOf f / 32 = 0 → done (.csum16 c f) (BitVec.ofNat 128 ((List.range ((n + 1) / 2)).foldl (fun r j =>
        let x := r + (byte (2 * j)).toNat * 256 + (if 2 * j + 1 < n then (byte (2 * j + 1)).toNat else 0)
        x % 65536 + x / 65536) ((getV s c (raOf f)).toNat % 65536))))

/-- 07 R284, R286: MFS writes the selected word, zero-extended; RDDAT the Datum's nanoseconds in lanes 1 and 0, its fraction in lane 2. -/
def Obligations.SpecialReadsGiveStatusAndDatum : Prop :=
  ∀ (s : State) (c : Nat) (f : BitVec 23), Ready s c →
    let x := getCtx s c
    let done (i : Instr) (v : Vec) : Prop :=
      ∃ t, exec i s = .next t ∧ RegistersOnly s t c [rdOf f] (x.pc + 4) ∧ getV t c (rdOf f) = v
    (fld f 11 8 = 0 → ∀ y ∈ ([(0x000, x.sw), (0x001, x.tsbp), (0x003, x.snap.pc.setWidth 32), (0x004, BitVec.ofNat 32 x.tb.length),
        (0x010, if x.exl then x.ecause else 0), (0x011, if x.exl then x.edetail else 0), (0x012, if x.exl then x.eaddr else 0),
        (0x013, if x.exl then x.epc else 0)] : List (Nat × Word)), selOf f = y.1 → x.tb.length ≤ 32 → done (.mfs c f) (y.2.setWidth 128)) ∧
    (fld f 0 19 = 0 → done (.rddat c f) (BitVec.ofNat 128
      ((getTile s (c / 256)).ns.toNat + (getTile s (c / 256)).frac.toNat / 2 ^ 24 * 2 ^ 64)))

/-! ## Loads, stores, branches -/

/-- 06 R230, 07 R260, 05 R190: a load issues a read of the bytes at ra bits 31:0 plus DISP15, for whose completion its context is STALLED (the
form of the wait is notes/assumptions/33.md); once the read is answered it writes the whole of rd, zero-extended or sign-extended. LD128
reads its lower 8 bytes first (05 R199). A read of another tile goes out as a READ flit (05 R201, 13 R474); one that the checks refuse, here or
there, raises access-denied with the address (09 R335). -/
def Obligations.LoadsReadOwnBufferMemory : Prop :=
  ∀ (s : State) (c : Nat) (f : BitVec 23), Ready s c → NoWatch s (c / 256) →
    let a := ((getV s c (raOf f)).setWidth 32 + (f.setWidth 15).signExtend 32 : Word).toNat
    let read (b n : Nat) : Wait := .answered (BitVec.ofNat 32 b) n (some (BitVec.ofNat 64 (memRead s b n))) (slotDue s c b)
    let own : Bool := a / 0x1000000 == c / 256
    let plain : List (Instr × Nat) :=
      [(.ld8 c f, 1), (.ld16 c f, 2), (.ld32 c f, 4), (.ld64 c f, 8), (.lds8 c f, 1), (.lds16 c f, 2), (.lds32 c f, 4)]
    let denied (i : Instr) (k : Nat) : Prop := ∃ t, exec i s = .next t ∧ Excepts s t c 1 k (BitVec.ofNat 32 a) (getCtx s c).pc
    (∀ x ∈ plain, Unanswered s c a x.2 → (getCtx s c).stores = [] →
      (own = true → checkAcc s (ctxAcc s c) a x.2 false ≠ 0 → denied x.1 (checkAcc s (ctxAcc s c) a x.2 false)) ∧
      (own = false → remoteCheck s c a x.2 false ≠ 0 → denied x.1 (remoteCheck s c a x.2 false))) ∧
    (∀ x ∈ plain, own = true → Unanswered s c a x.2 → checkAcc s (ctxAcc s c) a x.2 false = 0 → slotTime s c (slotNs a) = true →
      txnFree s c 1 = true → badStore s (c / 256) (a % 0x1000000) = none → (busRead (drainFor s c a x.2) (ctxAcc s c) a x.2).2.1 = 0 →
      ∃ t, exec x.1 s = .next t ∧ (getCtx t c).st = .stalled ∧ (getCtx t c).v = (getCtx s c).v ∧ (getCtx t c).pc = (getCtx s c).pc ∧
        (getCtx t c).wait = .answered (BitVec.ofNat 32 a) x.2
          (some (BitVec.ofNat 64 (busRead (drainFor s c a x.2) (ctxAcc s c) a x.2).2.2)) (slotDue s c a)) ∧
    (∀ x ∈ plain, ∀ j m, own = false → Unanswered s c a x.2 → remoteCheck s c a x.2 false = 0 → txnFree s c 1 = true →
      routeOf s (c / 256) (a / 0x1000000) = some (j, m) → ∃ t r, exec x.1 s = .next t ∧ t.mem = s.mem ∧ OthersKeep s t c ∧
        (getCtx t c).st = .stalled ∧ (getCtx t c).wait = .remote (BitVec.ofNat 32 a) x.2 (getTile s (c / 256)).tag ∧
        (getCtx t c).v = (getCtx s c).v ∧ (getCtx t c).pc = (getCtx s c).pc ∧ r ∈ onLink t (c / 256) j ∧ r.typ = 2 ∧
        r.tag = (getTile s (c / 256)).tag ∧ r.addr = BitVec.ofNat 32 a ∧ r.len.toNat = x.2) ∧
    (∀ x ∈ plain, ∀ k, (getCtx s c).stores = [] →
      ((getCtx s c).got.find? fun g => g.1.toNat == a && g.2.1 == x.2).map (fun g => g.2.2) = some none →
      remoteDet s c a x.2 = .exc k → denied x.1 k) ∧
    (a % 16 ≠ 0 → own = true → checkAcc s (ctxAcc s c) a 8 false ≠ 3 → (getCtx s c).stores = [] → denied (.ld128 c f) 4) ∧
    (a % 16 = 0 → own = true → Unanswered s c a 8 → (getCtx s c).stores = [] → checkAcc s (ctxAcc s c) a 8 false ≠ 0 →
      denied (.ld128 c f) (checkAcc s (ctxAcc s c) a 8 false)) ∧
    (∀ x ∈ ([(.ld8 c f, 1, fun v => BitVec.ofNat 128 v), (.ld16 c f, 2, fun v => BitVec.ofNat 128 v),
        (.ld32 c f, 4, fun v => BitVec.ofNat 128 v), (.ld64 c f, 8, fun v => BitVec.ofNat 128 v),
        (.lds8 c f, 1, fun v => (BitVec.ofNat 8 v).signExtend 128), (.lds16 c f, 2, fun v => (BitVec.ofNat 16 v).signExtend 128),
        (.lds32 c f, 4, fun v => (BitVec.ofNat 32 v).signExtend 128)] : List (Instr × Nat × (Nat → Vec))),
      (Unanswered s c a x.2.1 → BufferRead s c a x.2.1 → ∃ t, exec x.1 s = .next t ∧ Awaits s t c (read a x.2.1)) ∧
      ∀ d, Answered s c a x.2.1 d → ∃ t, exec x.1 s = .next t ∧ RegistersOnly s t c [rdOf f] ((getCtx s c).pc + 4) ∧
        getV t c (rdOf f) = x.2.2 d.toNat) ∧
    (a % 16 = 0 → Unanswered s c a 8 → BufferRead s c a 8 → ∃ t, exec (.ld128 c f) s = .next t ∧ Awaits s t c (read a 8)) ∧
    (∀ d, a % 16 = 0 → Answered s c a 8 d → Unanswered s c (a + 8) 8 → BufferRead s c (a + 8) 8 →
      ∃ t, exec (.ld128 c f) s = .next t ∧ Awaits s t c (read (a + 8) 8)) ∧
    ∀ d e, a % 16 = 0 → Answered s c a 8 d → Answered s c (a + 8) 8 e →
      ∃ t, exec (.ld128 c f) s = .next t ∧ RegistersOnly s t c [rdOf f] ((getCtx s c).pc + 4) ∧
        getV t c (rdOf f) = BitVec.ofNat 128 (d.toNat + e.toNat * 2 ^ 64)

/-- 05 R200, 07 R260: a store that is not staged is posted: the low bytes of rd join the context's stores on their way, for the address
ra bits 31:0 plus DISP15, on a slot-mode engine with the time at which it completes (04 R172); ST128 posts two, the lower first (05 R199).
No byte of memory and no register changes yet. A store that the checks refuse raises access-denied with the address (09 R335). -/
def Obligations.StoresArePostedInOrder : Prop :=
  ∀ (s : State) (c : Nat) (f : BitVec 23), Ready s c → NoWatch s (c / 256) →
    let a := ((getV s c (raOf f)).setWidth 32 + (f.setWidth 15).signExtend 32 : Word)
    let v := (getV s c (rdOf f)).toNat
    let posts (i : Instr) (l : List Store) : Prop :=
      ∃ t, exec i s = .next t ∧ StoresLater s t c [] ((getCtx s c).pc + 4) ∧ (getCtx t c).tb = (getCtx s c).tb ∧
        (getCtx t c).rpt = (getCtx s c).rpt ∧ (getCtx t c).stores = (getCtx s c).stores ++ l
    (∀ x ∈ ([(.st8 c f, 1), (.st16 c f, 2), (.st32 c f, 4), (.st64 c f, 8)] : List (Instr × Nat)),
      let k := (busWrite s (ctxAcc s c) a.toNat x.2 (v % 2 ^ (8 * x.2))).2
      isStaged c a.toNat = false → k ≠ 0 → (getCtx s c).stores = [] → ∃ t, exec x.1 s = .next t ∧ Excepts s t c 1 k a (getCtx s c).pc) ∧
    (a.toNat % 16 ≠ 0 → a.toNat / 0x1000000 = c / 256 → checkAcc s (ctxAcc s c) a.toNat 8 true ≠ 3 → (getCtx s c).stores = [] →
      ∃ t, exec (.st128 c f) s = .next t ∧ Excepts s t c 1 4 a (getCtx s c).pc) ∧
    (∀ x ∈ ([(.st8 c f, 1), (.st16 c f, 2), (.st32 c f, 4), (.st64 c f, 8)] : List (Instr × Nat)),
      PostedStore s c a.toNat x.2 (v % 2 ^ (8 * x.2)) →
      posts x.1 [{ addr := a, size := x.2, data := BitVec.ofNat 64 (v % 2 ^ (8 * x.2)), due := slotDue s c a.toNat }]) ∧
    (a.toNat % 16 = 0 → PostedStore s c a.toNat 8 (v % 2 ^ 64) 2 → (busWrite s (ctxAcc s c) (a.toNat + 8) 8 (v / 2 ^ 64)).2 = 0 →
      posts (.st128 c f) [{ addr := a, size := 8, data := BitVec.ofNat 64 (v % 2 ^ 64), due := slotDue s c a.toNat },
        { addr := a + 8, size := 8, data := BitVec.ofNat 64 (v / 2 ^ 64), due := slotDue s c (a.toNat + 8) }])

/-- 05 R209: a store to another tile, or to a staged register, becomes one traverse-buffer entry, where the buffer has room, and ST128 two; no
byte of memory and no register changes. A full buffer raises traverse-overflow, and an address that the checks refuse access-denied (05 R210). -/
def Obligations.StagedStoresEnterTraverseBuffer : Prop :=
  ∀ (s : State) (c : Nat) (f : BitVec 23), Ready s c → NoWatch s (c / 256) →
    let a := ((getV s c (raOf f)).setWidth 32 + (f.setWidth 15).signExtend 32 : Word)
    let v := (getV s c (rdOf f)).toNat
    let stages (i : Instr) (l : List Store) : Prop :=
      ∃ t, exec i s = .next t ∧ StoresLater s t c [] ((getCtx s c).pc + 4) ∧ (getCtx t c).stores = (getCtx s c).stores ∧
        (getCtx t c).rpt = (getCtx s c).rpt ∧ (getCtx t c).tb = (getCtx s c).tb ++ l
    (∀ x ∈ ([(.st8 c f, 1), (.st16 c f, 2), (.st32 c f, 4), (.st64 c f, 8)] : List (Instr × Nat)),
      let k := stageCheck s c a.toNat x.2 (v % 2 ^ (8 * x.2))
      isStaged c a.toNat = true → (getCtx s c).stores = [] →
      (k = 0 → (getCtx s c).tb.length = 32 → ∃ t, exec x.1 s = .next t ∧ Excepts s t c 5 0 0 (getCtx s c).pc) ∧
      (k ≠ 0 → ∃ t, exec x.1 s = .next t ∧ Excepts s t c 1 k a (getCtx s c).pc)) ∧
    (∀ x ∈ ([(.st8 c f, 1), (.st16 c f, 2), (.st32 c f, 4), (.st64 c f, 8)] : List (Instr × Nat)),
      isStaged c a.toNat = true → stageCheck s c a.toNat x.2 (v % 2 ^ (8 * x.2)) = 0 → (getCtx s c).tb.length < 32 →
      stages x.1 [{ addr := a, size := x.2, data := BitVec.ofNat 64 (v % 2 ^ (8 * x.2)) }]) ∧
    (a.toNat % 16 = 0 → isStaged c a.toNat = true → stageCheck s c a.toNat 8 (v % 2 ^ 64) = 0 →
      stageCheck s c (a.toNat + 8) 8 (v / 2 ^ 64) = 0 → (getCtx s c).tb.length < 31 →
      stages (.st128 c f) [{ addr := a, size := 8, data := BitVec.ofNat 64 (v % 2 ^ 64) },
        { addr := a + 8, size := 8, data := BitVec.ofNat 64 (v / 2 ^ 64) }])

/-- 05 R200: the oldest store on its way is performed, on a slot-mode engine at its time (04 R172). Its bytes, and no other byte of memory,
change; the younger ones wait. -/
def Obligations.StoreCompletionWritesItsBytes : Prop :=
  ∀ (s : State) (c : Nat) (x : Store) (rest : List Store), (getCtx s c).stores = x :: rest → BufferStore s c x →
    (dueNow s (c / 256) x.due = true →
      ∃ t, exec (.storeComplete c) s = .next t ∧ (getCtx t c).stores = rest ∧ t.code = s.code ∧ t.flash = s.flash ∧
        (∀ i, i < x.size → sget 0 t.mem (x.addr.toNat + i) = BitVec.ofNat 8 (x.data.toNat / 256 ^ i)) ∧
        (∀ k, (k < x.addr.toNat ∨ x.addr.toNat + x.size ≤ k) → sget 0 t.mem k = sget 0 s.mem k) ∧
        (getCtx t c).v = (getCtx s c).v ∧ (getCtx t c).pc = (getCtx s c).pc ∧ OthersGoOn s t c) ∧
    (dueNow s (c / 256) x.due = false → exec (.storeComplete c) s = .next s)

/-- 06 R231, R232, R235, 07 R264: branches test all 128 bits of ra, targets are formed modulo 2^20 with bits 1:0 zero, and a link register
takes PC + 4; CALLR reads ra before it writes rd. -/
def Obligations.BranchesFormTheirTargets : Prop :=
  ∀ (s : State) (c : Nat) (f : BitVec 23), Ready s c →
    let pc := (getCtx s c).pc
    let d4 : BitVec 20 := (BitVec.ofNat 19 (fld f 19 4 * 2 ^ 15 + fld f 0 15)).signExtend 20
    let d5 : BitVec 20 := (BitVec.ofNat 19 (fld f 0 19)).signExtend 20
    let ra := getV s c (raOf f)
    let goes (i : Instr) (dest : BitVec 20) : Prop := ∃ t, exec i s = .next t ∧ RegistersOnly s t c [] dest
    let links (i : Instr) (dest : BitVec 20) : Prop :=
      ∃ t, exec i s = .next t ∧ RegistersOnly s t c [rdOf f] dest ∧ getV t c (rdOf f) = (pc + 4).setWidth 128
    goes (.bz c f) (if ra = 0 then (pc + 4 + 4 * d4) &&& 0xFFFFC else pc + 4) ∧
    goes (.bnz c f) (if ra = 0 then pc + 4 else (pc + 4 + 4 * d4) &&& 0xFFFFC) ∧
    (rdOf f = 0 → goes (.j c f) ((pc + 4 + 4 * d5) &&& 0xFFFFC)) ∧
    links (.call c f) ((pc + 4 + 4 * d5) &&& 0xFFFFC) ∧
    (rdOf f = 0 → rbOf f = 0 → selOf f = 0 → goes (.jr c f) (ra.setWidth 20 &&& 0xFFFFC)) ∧
    (rbOf f = 0 → selOf f = 0 → links (.callr c f) (ra.setWidth 20 &&& 0xFFFFC))

/-! ## Block repeats -/

/-- 07 R265, R266: with V12 bits 31:0 zero a repeat does no element: RCMP gives 1, RSCAN 0, the others leave rd; SW.RPT ends at 0. -/
def Obligations.RepeatOfNothingOnlyFinishes : Prop :=
  ∀ (s : State) (c n : Nat) (f : BitVec 23), Ready s c → (getV s c 12).setWidth 32 = 0 → 1 ≤ eOf f → eOf f ≤ 4 →
    let leaves (i : Instr) : Prop := ∃ t, exec i s = .next t ∧ StoresLater s t c [] ((getCtx s c).pc + 4) ∧
      (getCtx t c).rpt = false ∧ (getCtx t c).stores = (getCtx s c).stores ∧ (getCtx t c).tb = (getCtx s c).tb
    let gives (i : Instr) (v : Vec) : Prop := ∃ t, exec i s = .next t ∧ StoresLater s t c [rdOf f] ((getCtx s c).pc + 4) ∧
      (getCtx t c).rpt = false ∧ (getCtx t c).stores = (getCtx s c).stores ∧ (getCtx t c).tb = (getCtx s c).tb ∧ getV t c (rdOf f) = v
    (rdOf f = 0 → raOf f = 0 → rbOf f = 0 → fnOf f = 0 → leaves (.rmov c f n)) ∧
    (rdOf f = 0 → rbOf f = 0 → fnOf f = 0 → leaves (.rfill c f n)) ∧
    (raOf f = 0 → rbOf f = 0 → fnOf f = 0 → gives (.rcmp c f n) 1) ∧ (fnOf f = 0 → gives (.rscan c f n) 0) ∧
    (raOf f = 0 → rbOf f = 0 → eOf f = 4 → fnOf f < 3 → leaves (.rcrc c f n)) ∧
    (raOf f = 0 → rbOf f = 0 → 3 ≤ eOf f → (fnOf f = 0 ∨ fnOf f = 1 ∧ eOf f = 3) → leaves (.rsum c f n))

/-- 07 R265 to R268: the last element of a repeat. RMOV and RFILL post one store of the element's width at the address in V14; RCMP,
RSCAN, RCRC and RSUM take the element at the address in V13 from the doubleword that holds it, for whose read the context is STALLED first.
V12 reaches 0 and the pointers advance by the element's bytes, but not where RCMP or RSCAN stops at the element. -/
def Obligations.RepeatDoesItsLastElement : Prop :=
  ∀ (s : State) (c n : Nat) (f : BitVec 23), Ready s c → NoWatch s (c / 256) → (getV s c 12).setWidth 32 = 1 → 1 ≤ eOf f → eOf f ≤ 4 →
    (getCtx s c).rep = {} →
    let w := widthOf (eOf f)
    let src := (getV s c 13).setWidth 32
    let dst := (getV s c 14).setWidth 32
    let own (a : Nat) : Prop := a / 0x1000000 = c / 256 ∧ a % 0x1000000 < 0x400000 ∧ checkAcc s (ctxAcc s c) a (w / 8) false = 0
    let got (a : Nat) (d : DWord) : Prop := own a ∧ Answered s c (a - a % 8) 8 d
    let part (a : Nat) (d : DWord) : Nat := d.toNat / 2 ^ (8 * (a % 8)) % 2 ^ w
    let ends (i : Instr) (ns : List Nat) (p : State → Prop) : Prop := ∃ t, exec i s = .next t ∧
      StoresLater s t c ns ((getCtx s c).pc + 4) ∧ (getCtx t c).rpt = false ∧ (getCtx t c).tb = (getCtx s c).tb ∧ p t
    let upper (t : State) : Prop := ∀ m ∈ [12, 13, 14], (getV t c m) >>> 32 = (getV s c m) >>> 32
    let at_ (t : State) (k a b : Word) : Prop :=
      (getV t c 12).setWidth 32 = k ∧ (getV t c 13).setWidth 32 = a ∧ (getV t c 14).setWidth 32 = b
    let same (t : State) : Prop := (getCtx t c).stores = (getCtx s c).stores
    let step : Word := BitVec.ofNat 32 (w / 8)
    (∀ i ∈ [Instr.rmov c f n, .rcmp c f n, .rscan c f n, .rcrc c f n, .rsum c f n],
      fnOf f = 0 → (raOf f = 0 ∧ rbOf f = 0 ∧ rdOf f = 0 ∨ i = .rscan c f n) → (eOf f = 4 ∨ i ≠ .rcrc c f n) → (3 ≤ eOf f ∨ i ≠ .rsum c f n) →
      own src.toNat → Unanswered s c (src.toNat - src.toNat % 8) 8 → BufferRead s c (src.toNat - src.toNat % 8) 8 →
      ∃ t, exec i s = .next t ∧ Awaits (modCtx s c fun x => { x with rpt := true }) t c
        (.answered (BitVec.ofNat 32 (src.toNat - src.toNat % 8)) 8 (some (BitVec.ofNat 64 (memRead s (src.toNat - src.toNat % 8) 8)))
          (slotDue s c (src.toNat - src.toNat % 8)))) ∧
    (∀ d, fnOf f = 0 → rdOf f = 0 → raOf f = 0 → rbOf f = 0 → got src.toNat d → PostedStore s c dst.toNat (w / 8) (part src.toNat d) →
      dst.toNat % 0x1000000 < 0x500000 →
      ends (.rmov c f n) [12, 13, 14] fun t => upper t ∧ at_ t 0 (src + step) (dst + step) ∧ getV t c 0 = getV s c 0 ∧
        (getCtx t c).stores = (getCtx s c).stores ++
          [{ addr := dst, size := w / 8, data := BitVec.ofNat 64 (part src.toNat d), due := slotDue s c dst.toNat }]) ∧
    (fnOf f = 0 → rdOf f = 0 → rbOf f = 0 → PostedStore s c dst.toNat (w / 8) ((getV s c (raOf f)).toNat % 2 ^ w) → dst.toNat % 0x1000000 < 0x500000 →
      ends (.rfill c f n) [12, 13, 14] fun t => upper t ∧ at_ t 0 src (dst + step) ∧ getV t c 0 = getV s c 0 ∧
        (getCtx t c).stores = (getCtx s c).stores ++
          [{ addr := dst, size := w / 8, data := BitVec.ofNat 64 ((getV s c (raOf f)).toNat % 2 ^ w), due := slotDue s c dst.toNat }]) ∧
    (∀ d e, fnOf f = 0 → raOf f = 0 → rbOf f = 0 → rdOf f < 12 → got src.toNat d → got dst.toNat e →
      ends (.rcmp c f n) [12, 13, 14, rdOf f] fun t => upper t ∧ same t ∧
        (if part src.toNat d = part dst.toNat e then getV t c (rdOf f) = 1 ∧ at_ t 0 (src + step) (dst + step)
         else getV t c (rdOf f) = 0 ∧ at_ t 1 src dst)) ∧
    (∀ d, fnOf f = 0 → rdOf f < 12 → got src.toNat d →
      ends (.rscan c f n) [12, 13, 14, rdOf f] fun t => upper t ∧ same t ∧
        (if part src.toNat d &&& ((getV s c (rbOf f)).toNat % 2 ^ w) = ((getV s c (raOf f)).toNat % 2 ^ w) &&& ((getV s c (rbOf f)).toNat % 2 ^ w)
         then getV t c (rdOf f) = 1 ∧ at_ t 1 src dst else getV t c (rdOf f) = 0 ∧ at_ t 0 (src + step) dst)) ∧
    (∀ d, raOf f = 0 → rbOf f = 0 → rdOf f < 12 → eOf f = 4 → fnOf f < 3 → got src.toNat d →
      ends (.rcrc c f n) [12, 13, 14, rdOf f] fun t => upper t ∧ same t ∧ at_ t 0 (src + 1) dst ∧
        let b : Byte := BitVec.ofNat 8 (part src.toNat d)
        let r : Word := (getV s c (rdOf f)).setWidth 32
        getV t c (rdOf f) = if fnOf f = 0 then (crc32Byte r b).setWidth 128 else if fnOf f = 1 then (crc32cByte r b).setWidth 128
          else (crc16Byte (r.setWidth 16) b).setWidth 128) ∧
    (∀ d, raOf f = 0 → rbOf f = 0 → rdOf f < 12 → 3 ≤ eOf f → (fnOf f = 0 ∨ fnOf f = 1 ∧ eOf f = 3) → got src.toNat d →
      ends (.rsum c f n) [12, 13, 14, rdOf f] fun t => upper t ∧ same t ∧ at_ t 0 (src + step) dst ∧
        let x := (getV s c (rdOf f)).toNat
        getV t c (rdOf f) = BitVec.ofNat 128 (if fnOf f = 0 then (x % 2 ^ 32 + part src.toNat d) % 2 ^ 32
          else (x % 2 ^ 16 + part src.toNat d) % 65536 + (x % 2 ^ 16 + part src.toNat d) / 65536))

/-! ## Paired words -/

/-- 06 R236 to R241: each short operation with NOP in the other slot: lane L of rd, or the whole of rd, takes the value of the table; the other
lanes stay where the table writes a lane; a load waits for its read first, a store is posted, a branch of slot B tests rd. Of two operations
that pair, neither of them one of memory, each does what it does alone: both read the registers from before the pair. -/
def Obligations.PairedSlotsComputeTheirLane : Prop :=
  ∀ (s : State) (c : Nat) (rd rs l : Nat) (imm : BitVec 6) (inB : Bool), Ready s c → rd < 16 → rs < 16 → l < 4 →
    let word (op lo : Nat) : BitVec 31 :=
      BitVec.ofNat 31 ((op * 2 ^ 10 + rd * 2 ^ 6 + lo) * (if inB then 1 else 2 ^ 16))
    let d := getV s c rd
    let a := elem d 32 l
    let b := elem (getV s c rs) 32 l
    let a0 := elem d 32 0
    let z : Word := BitVec.ofNat 32 imm.toNat
    let i : Word := imm.signExtend 32
    let lane (op lo k : Nat) (v : Word) : Prop :=
      ∃ t, exec (.pairedWord c (word op lo)) s = .next t ∧ RegistersOnly s t c [rd] ((getCtx s c).pc + 4) ∧
        ∀ j, j < 4 → elem (getV t c rd) 32 j = if j = k then v else elem d 32 j
    let whole (op lo : Nat) (v : Vec) : Prop :=
      ∃ t, exec (.pairedWord c (word op lo)) s = .next t ∧ RegistersOnly s t c [rd] ((getCtx s c).pc + 4) ∧ getV t c rd = v
    let r := rs * 4 + l
    let m := imm.toNat
    let addr : Nat := b.toNat
    let pc4 := (getCtx s c).pc + 4
    (∀ x ∈ ([(0x01, b), (0x03, a + b), (0x05, a - b), (0x06, a &&& b), (0x07, a ||| b), (0x08, a ^^^ b), (0x0A, a <<< (b.toNat % 32)),
        (0x0B, a >>> (b.toNat % 32)), (0x15, ~~~b), (0x1E, BitVec.ofNat 32 ((List.range 32).takeWhile fun k => !b.getLsbD (31 - k)).length),
        (0x1F, if a.toNat < b.toNat then b else a)] : List (Nat × Word)), lane x.1 r l x.2) ∧
    (∀ x ∈ ([(0x02, z), (0x04, a0 + i), (0x09, a0 &&& z), (0x0C, if 32 ≤ m then 0 else a0 <<< m), (0x0D, if 32 ≤ m then 0 else a0 >>> m),
        (0x0E, if 32 ≤ m then a0.sshiftRight 31 else a0.sshiftRight m)] : List (Nat × Word)), lane x.1 m 0 x.2) ∧
    (∀ x ∈ ([(0x0F, if a = b then 1 else 0), (0x10, if a = b then 0 else 1), (0x11, if a.toInt < b.toInt then 1 else 0),
        (0x12, if a.toNat < b.toNat then 1 else 0), (0x17, b.setWidth 128), (0x16, b ++ b ++ b ++ b)] : List (Nat × Vec)), whole x.1 r x.2) ∧
    (∀ x ∈ ([(0x13, if a0 = z then 1 else 0), (0x14, if a0.toInt < i.toInt then 1 else 0)] : List (Nat × Vec)), whole x.1 m x.2) ∧
    (NoWatch s (c / 256) →
      (∀ x ∈ ([(0x18, 4), (0x1A, 1)] : List (Nat × Nat)),
        (Unanswered s c addr x.2 → BufferRead s c addr x.2 → ∃ t, exec (.pairedWord c (word x.1 r)) s = .next t ∧
          Awaits s t c (.answered b x.2 (some (BitVec.ofNat 64 (memRead s addr x.2))) (slotDue s c addr))) ∧
        ∀ q, Answered s c addr x.2 q → q.toNat < 2 ^ (8 * x.2) → lane x.1 r l (BitVec.ofNat 32 q.toNat)) ∧
      ∀ x ∈ ([(0x19, 4), (0x1B, 1)] : List (Nat × Nat)), PostedStore s c addr x.2 (a.toNat % 2 ^ (8 * x.2)) →
        ∃ t, exec (.pairedWord c (word x.1 r)) s = .next t ∧ StoresLater s t c [] pc4 ∧ (getCtx t c).tb = (getCtx s c).tb ∧
          (getCtx t c).rpt = (getCtx s c).rpt ∧ (getCtx t c).stores = (getCtx s c).stores ++
            [{ addr := b, size := x.2, data := BitVec.ofNat 64 (a.toNat % 2 ^ (8 * x.2)), due := slotDue s c addr }]) ∧
    (inB = true → ∀ x ∈ ([(0x1C, d == 0), (0x1D, d != 0)] : List (Nat × Bool)), ∃ t, exec (.pairedWord c (word x.1 m)) s = .next t ∧
      (x.2 = true → RegistersOnly s t c [] ((pc4 + 4 * imm.signExtend 20) &&& 0xFFFFC)) ∧ (x.2 = false → RegistersOnly s t c [] pc4)) ∧
    (∀ w : BitVec 31, pairOk w = true → pairRule (slotA w) (slotB w) = 0 → (slotA w).mem = false → (slotB w).mem = false →
      ∃ t, exec (.pairedWord c w) s = .next t ∧ ∃ ta, exec (.pairedWord c (w &&& 0x7FFF0000)) s = .next ta ∧
        ∃ tb, exec (.pairedWord c (w &&& 0x7FFF)) s = .next tb ∧
        RegistersOnly s t c [(slotA w).rd, (slotB w).rd] (getCtx tb c).pc ∧
        ∀ m, getV t c m = if (slotA w).writes && m == (slotA w).rd then getV ta c m else getV tb c m)

/-- 06 R243, R244: a pair that breaks a rule takes the pair-hazard exception, class 4, with the lowest code of a broken rule as its detail;
no part of the pair takes effect. -/
def Obligations.BrokenPairRaisesPairHazard : Prop :=
  ∀ (s : State) (c : Nat) (w : BitVec 31), Ready s c → pairOk w = true →
    let a := slotA w
    let b := slotB w
    let code := if a.writes && b.writes && a.rd == b.rd then 1 else if a.writes && b.reads a.rd then 2 else if a.mem && b.mem then 3
      else if a.branch then 4 else 0
    code ≠ 0 → (getCtx s c).stores = [] →
    ∃ t, exec (.pairedWord c w) s = .next t ∧ Excepts s t c 4 code 0 (getCtx s c).pc

/-! ## Commit, exceptions, special registers -/

/-- 07 R278, R280, 05 R208, R211: COMMIT performs the stores on their way, takes the snapshot with the program counter at PC + 4 and hands the
traverse buffer's entries to the release, oldest first, behind those still waiting, for which the context is STALLED; with nothing to
release it goes on, or stops in a drain (03 R116). WAIT does the same and then ends the activation: the context is IDLE and its sources are
completed, or it starts the next activation for a held start-of-frame (12 R441). -/
def Obligations.CommitTakesSnapshotAndReleases : Prop :=
  ∀ (s : State) (c : Nat), Ready s c → BufferStores s c →
    let x := getCtx s c
    let taken (t : State) : Prop :=
      (getCtx t c).snap = { v := x.v, pc := x.pc + 4, priv := x.priv, exl := x.exl, ie := x.ie, rpt := x.rpt } ∧
      (getCtx t c).rel = x.rel ++ x.tb ∧ (getCtx t c).tb = [] ∧ (getCtx t c).stores = [] ∧ (getCtx t c).v = x.v ∧ t.mem = (fence s c).mem ∧
      OthersKeep s t c
    let waits (t : State) (w : Bool) : Prop :=
      taken t ∧ (getCtx t c).pc = x.pc + 4 ∧ (getCtx t c).st = .stalled ∧ (getCtx t c).wait = .release ∧ (getCtx t c).ending = w
    let draining := ((fnOfCtx s c).map (fnState s)).getD .unloaded = .draining ∧ x.restart = false
    (x.rel ++ x.tb ≠ [] → ∃ t, exec (.commit c 0) s = .next t ∧ waits t false) ∧
    (x.rel ++ x.tb = [] → ∃ t, exec (.commit c 0) s = .next t ∧ taken t ∧ (getCtx t c).pc = x.pc + 4 ∧ (getCtx t c).act = true ∧
      (draining → (getCtx t c).stopped = true ∧ (getCtx t c).st = .stalled) ∧
      (¬draining → (getCtx t c).stopped = false ∧ ((getCtx t c).st = .ready ∨ (getCtx t c).st = .active))) ∧
    (x.rel ++ x.tb ≠ [] → ∃ t, exec (.wait c 0) s = .next t ∧ waits t true) ∧
    (x.rel ++ x.tb = [] → ∃ t, exec (.wait c 0) s = .next t ∧
      (∀ k, (getSrc s k).act = true → (getSrc s k).holder = some (c % 256) → k / 1024 = c / 256 → (getSrc t k).act = false) ∧
      (oldestHeld s c = none → taken t ∧ (getCtx t c).pc = x.pc + 4 ∧ (getCtx t c).st = .idle ∧ (getCtx t c).act = false ∧
        ∀ k ∈ pairsOfCtx s c, (getPair t k).serving = false) ∧
      (∀ k i, oldestHeld s c = some (k, i) → isRunning s (fnOfCtx s c) = true →
        (getCtx t c).act = true ∧ (getCtx t c).asrc = 0x3FE ∧ (getPair t k).serving = true ∧
        (getCtx t c).pc = (rg s (ta (k / 8) (0x502008 + k % 8 * 0x80))).setWidth 20 &&& 0xFFFFC ∧ OthersKeep s t c))

/-- 05 R205, 07 R281: FENCE performs the stores on their way, in order, before it completes. Of one store its bytes, and no others, have
changed. -/
def Obligations.FencePerformsPostedStore : Prop :=
  ∀ (s : State) (c : Nat), Ready s c → BufferStores s c →
    ∃ t, exec (.fence c 0) s = .next t ∧ (getCtx t c).stores = [] ∧ (getCtx t c).pc = (getCtx s c).pc + 4 ∧
      (getCtx t c).v = (getCtx s c).v ∧ (getCtx t c).snap = (getCtx s c).snap ∧ (getCtx t c).tb = (getCtx s c).tb ∧
      t.mem = (fence s c).mem ∧ OthersKeep s t c ∧
      ∀ x, (getCtx s c).stores = [x] →
        (∀ i, i < x.size → sget 0 t.mem (x.addr.toNat + i) = BitVec.ofNat 8 (x.data.toNat / 256 ^ i)) ∧
        ∀ k, (k < x.addr.toNat ∨ x.addr.toNat + x.size ≤ k) → sget 0 t.mem k = sget 0 s.mem k

/-- 09 R346, 07 R282: TRAP takes the exception of class 6 with SEL as its detail and the next instruction as its saved program counter. When the
read of HVEC and HCTL is complete the entry, of whatever cause, ends: the task-state block takes the program counter, the status word, cause,
detail, address and the Datum's low word; the first NSAVE registers are saved; the context runs at HVEC, or an event's vector, at the
privilege HPRIV but never below its ceiling's number (an event's at 2), with EXL 1 and IE and RPT 0. No byte outside the block changes. -/
def Obligations.TrapEntersHandler : Prop :=
  (∀ (s : State) (c : Nat) (f : BitVec 23), Ready s c → fld f 11 12 = 0 → (getCtx s c).stores = [] →
    ∃ t, exec (.trap c f) s = .next t ∧ Excepts s t c 6 (fld f 0 11) 0 ((getCtx s c).pc + 4)) ∧
  ∀ (s : State) (c : Nat) (e : Entering) (due : Option DWord), (getCtx s c).entering = some e → (getCtx s c).wait = .entry due →
    dueNow s (c / 256) due = true → (getCtx s c).st = .stalled → s.badBlk = [] → powered s (c / 256) domBUF = true →
    let x := getCtx s c
    let b := x.tsbp.toNat
    let hctl := memRead s (b + 0x1C) 4
    let save := min (hctl / 16 % 8) 4
    e.cause < 2 ^ 32 → e.detail < 2 ^ 32 → b % 128 = 0 →
    ∃ t, exec (.accessComplete c) s = .next t ∧
      memRead t b 4 = e.epc.toNat ∧ memRead t (b + 4) 4 = x.sw.toNat ∧ memRead t (b + 8) 4 = e.cause ∧ memRead t (b + 12) 4 = e.detail ∧
      memRead t (b + 16) 4 = e.addr.toNat ∧ memRead t (b + 20) 4 = (now32 s (c / 256)).toNat ∧
      (∀ n, n < save → memRead t (b + 0x40 + 16 * n) 16 = (getV s c n).toNat) ∧
      (∀ k, (k < b ∨ b + 0x18 ≤ k) → (k < b + 0x40 ∨ b + 0x40 + 16 * save ≤ k) → sget 0 t.mem k = sget 0 s.mem k) ∧
      (getCtx t c).pc = (e.vec.getD (BitVec.ofNat 20 (memRead s (b + 0x18) 4))) &&& 0xFFFFC ∧
      (getCtx t c).priv.toNat = (match e.vec with | some _ => 2 | none => max (min (hctl % 4) 2) (ceiling s (ctxParcel s c)).toNat) ∧
      (getCtx t c).exl = true ∧ (getCtx t c).ie = false ∧ (getCtx t c).rpt = false ∧ (getCtx t c).v = x.v ∧ (getCtx t c).tb = x.tb ∧
      (getCtx t c).exent = false ∧ (getCtx t c).snap = x.snap ∧ OthersGoOn s t c

/-- 09 R352: RFE reads EPC and ESW, for which its context is STALLED; then it restores the first NSAVE registers, privilege, IE, RPT and the
program counter from the block, and clears EXL; a saved privilege of 3 is taken as 2; the return from an event completes its source. -/
def Obligations.ReturnRestoresSavedState : Prop :=
  ∀ (s : State) (c : Nat), Ready s c →
    let x := getCtx s c
    let b := x.tsbp.toNat
    x.exl = true → tsbOk s c = true → x.stores = [] → s.badBlk = [] → anyLost s b 128 = false →
    (Unanswered s c b 8 → slotTime s c 64 = true →
      ∃ t, exec (.rfe c 0) s = .next t ∧ t.mem = s.mem ∧ OthersKeep s t c ∧ (getCtx t c).st = .stalled ∧ (getCtx t c).v = x.v ∧
        (getCtx t c).pc = x.pc ∧ (getCtx t c).sw = x.sw ∧
        (getCtx t c).wait = .answered x.tsbp 8 (some (BitVec.ofNat 64 (memRead s b 8))) (slotDue s c b)) ∧
    ∀ d, Answered s c b 8 d → powered s (c / 256) domBUF = true →
      let esw := d.toNat / 2 ^ 32
      let save := min (memRead s (b + 0x1C) 4 / 16 % 8) 4
      (ceiling s (ctxParcel s c)).toNat ≤ esw / 1024 % 4 →
      ∃ t, exec (.rfe c 0) s = .next t ∧ t.mem = s.mem ∧ OthersKeep s t c ∧
        (∀ n, n < 16 → getV t c n = if n < save then BitVec.ofNat 128 (memRead s (b + 0x40 + 16 * n) 16) else getV s c n) ∧
        (getCtx t c).pc = BitVec.ofNat 20 (d.toNat % 2 ^ 32) &&& 0xFFFFC ∧ (getCtx t c).priv.toNat = min (esw / 1024 % 4) 2 ∧
        (getCtx t c).ie = esw.testBit 8 ∧ (getCtx t c).rpt = esw.testBit 0 ∧ (getCtx t c).exl = false ∧ (getCtx t c).tb = x.tb ∧
        (x.ecause = 8 → (getCtx t c).isrc = 0x3FF ∧ (getSrc t (c / 256 * 1024 + x.isrc.toNat)).act = false)

/-- 09 R346, R353, R356: the instructions whose own effect is an exception, TRAP, BRK (where no debugger halts it) and a reserved opcode
(06 R247), and the forms that the fields of a word make undefined (06 R224 to R226, 07 R256, R258, R265, R274 to R285), each with its class,
detail and saved program counter; where the context cannot enter a handler its activation ends. RFE outside a handler is undefined too. -/
def Obligations.TrapsAndUndefinedFormsRaiseTheirException : Prop :=
  ∀ (s : State) (c n : Nat) (op : BitVec 8) (f : BitVec 23), Ready s c → (getCtx s c).stores = [] →
    let x := getCtx s c
    let takes (i : Instr) (cls det : Nat) (pc : BitVec 20) : Prop := ∃ t, exec i s = .next t ∧ Excepts s t c cls det 0 pc
    let undef (l : List Instr) : Prop := ∀ i ∈ l, takes i 2 2 x.pc
    let e := eOf f
    let fn := fnOf f
    (fld f 11 12 = 0 → takes (.trap c f) 6 (fld f 0 11) (x.pc + 4) ∧ (brkHalts s c = false → takes (.brk c f) 7 (fld f 0 11) x.pc)) ∧
    takes (.reservedOpcode c op f) 2 1 x.pc ∧ (f = 0 → x.exl = false → takes (.rfe c f) 2 3 x.pc) ∧
    (4 < e ∨ fn ≠ 0 → undef [.add c f, .sub c f, .mul c f, .mulhu c f, .min c f, .max c f, .minu c f, .maxu c f, .adds c f, .subs c f,
      .shl c f, .shr c f, .sar c f, .rol c f]) ∧
    (e ≠ 0 ∨ fn ≠ 0 → undef [.and c f, .or c f, .xor c f, .andn c f, .perm c f]) ∧
    (e ≠ 0 ∨ fn ≠ 0 ∨ rbOf f ≠ 0 → undef [.not c f, .mov c f]) ∧
    (4 < e ∨ rbOf f ≠ 0 ∨ 128 ≤ fn → undef [.shli c f, .shri c f, .sari c f, .roli c f]) ∧
    (4 < e ∨ rbOf f ≠ 0 ∨ 16 ≤ fn ∨ 128 / widthOf e ≤ fn → undef [.lget c f, .lput c f, .dup c f]) ∧
    (4 < e ∨ rbOf f ≠ 0 ∨ fn ≠ 0 → undef [.bswap c f, .clz c f, .popc c f]) ∧
    (e ≠ 0 ∨ fn % 32 = 0 ∨ 16 < fn % 32 ∨ 64 ≤ fn → undef [.crc32 c f]) ∧
    (e ≠ 0 ∨ fn % 32 = 0 ∨ 16 < fn % 32 ∨ 32 ≤ fn → undef [.crc16 c f, .csum16 c f]) ∧
    (e = 0 ∨ 4 < e → undef [.rmov c f n, .rfill c f n, .rcmp c f n, .rscan c f n, .rcrc c f n, .rsum c f n]) ∧
    (rdOf f ≠ 0 ∨ raOf f ≠ 0 ∨ rbOf f ≠ 0 ∨ fn ≠ 0 → undef [.rmov c f n]) ∧ (rdOf f ≠ 0 ∨ rbOf f ≠ 0 ∨ fn ≠ 0 → undef [.rfill c f n]) ∧
    (raOf f ≠ 0 ∨ rbOf f ≠ 0 ∨ fn ≠ 0 → undef [.rcmp c f n]) ∧ (fn ≠ 0 → undef [.rscan c f n]) ∧
    (raOf f ≠ 0 ∨ rbOf f ≠ 0 ∨ e ≠ 4 ∨ 3 ≤ fn → undef [.rcrc c f n]) ∧
    (raOf f ≠ 0 ∨ rbOf f ≠ 0 ∨ e < 3 ∨ 2 ≤ fn ∨ (fn = 1 ∧ e ≠ 3) → undef [.rsum c f n]) ∧
    (rdOf f ≠ 0 → undef [.j c f, .jr c f, .mtsSw c f, .mtsTsbp c f, .wdkick c f]) ∧
    (rbOf f ≠ 0 → undef [.jr c f, .callr c f, .mtsSw c f, .mtsTsbp c f, .wdkick c f, .psqw c f, .psqr c f, .schw c f]) ∧
    (selOf f ≠ 0 → undef [.jr c f, .callr c f, .schw c f]) ∧ (32 ≤ selOf f → undef [.psqw c f, .psqr c f]) ∧
    (raOf f ≠ 0 → undef [.psqr c f, .mfs c f, .schr c f, .schrStatus c f]) ∧ (rbOf f ≠ 0 → undef [.mfs c f, .schr c f, .schrStatus c f]) ∧
    (2 ≤ selOf f → undef [.schr c f, .schrStatus c f]) ∧ (fld f 0 19 ≠ 0 → undef [.rddat c f]) ∧ (fld f 11 12 ≠ 0 → undef [.trap c f, .brk c f]) ∧
    (f ≠ 0 → undef [.commit c f, .wait c f, .fence c f, .rfe c f])

/-- 07 R283 to R285: MTS to SW sets IE and RPT only, and an event that then waits for the context is delivered before its next instruction; MTS
to TSBP at privilege 1 or 0 takes an address that passes (05 R194), with bits 6:0 zero; a privilege above 1 or a refused address leaves
TSBP and takes the exception. WDKICK by a context of tile 0 restarts its parcel's watchdog window; of another tile it sends a kick. -/
def Obligations.SpecialWritesChangeTheirRegister : Prop :=
  ∀ (s : State) (c : Nat) (f : BitVec 23), Ready s c → rdOf f = 0 → rbOf f = 0 →
    let x := getCtx s c
    let v := (getV s c (raOf f)).setWidth 32
    let u := next4 (modCtx s c fun y => { y with ie := bit v 8, rpt := bit v 0 }) c
    (selOf f = 0 → ∃ t, exec (.mtsSw c f) s = .next t ∧
      (bit v 8 = false ∨ x.exl = true ∨ (getCtx u c).haltReq ≠ .none ∨ insideWinner u c = none →
        Bookkeeping s t ∧ OthersKeep s t c ∧ (getCtx t c).v = x.v ∧ (getCtx t c).pc = x.pc + 4 ∧
        (getCtx t c).ie = bit v 8 ∧ (getCtx t c).rpt = bit v 0 ∧ (getCtx t c).priv = x.priv ∧ (getCtx t c).exl = x.exl ∧
        (getCtx t c).tsbp = x.tsbp) ∧
      ∀ n, bit v 8 = true → (getCtx u c).haltReq = .none → insideWinner u c = some n → n < 1023 → x.stores = [] → s.badBlk = [] →
        anyLost s (x.tsbp.toNat + 0x18) 8 = false →
        (getCtx t c).ie = true ∧ (getCtx t c).rpt = bit v 0 ∧ (getCtx t c).v = x.v ∧ (getCtx t c).st = .stalled ∧
        (getCtx t c).entering = some { cause := 8, detail := n, addr := 0, epc := x.pc + 4,
                                       vec := some ((rg s (ta (c / 256) (0x511004 + n * 16))).setWidth 20) } ∧
        (getCtx t c).isrc.toNat = n ∧ (getSrc t (c / 256 * 1024 + n)).act = true ∧ t.mem = s.mem) ∧
    (selOf f = 1 → ∃ t, exec (.mtsTsbp c f) s = .next t ∧
      (x.priv.toNat ≤ 1 → tsbpOk s c v = true → Bookkeeping s t ∧ OthersKeep s t c ∧ (getCtx t c).v = x.v ∧ (getCtx t c).pc = x.pc + 4 ∧
        (getCtx t c).tsbp = v &&& ~~~0x7F ∧ (getCtx t c).ie = x.ie ∧ (getCtx t c).rpt = x.rpt ∧ (getCtx t c).priv = x.priv) ∧
      (2 ≤ x.priv.toNat → x.stores = [] → (getCtx t c).tsbp = x.tsbp ∧ Excepts s t c 3 2 0 x.pc) ∧
      (x.priv.toNat ≤ 1 → tsbpOk s c v = false → x.stores = [] → (getCtx t c).tsbp = x.tsbp ∧ Excepts s t c 1 7 0 x.pc)) ∧
    (selOf f = 0x20 → ∃ t, exec (.wdkick c f) s = .next t ∧ (getCtx t c).v = x.v ∧ (getCtx t c).pc = x.pc + 4 ∧ (getCtx t c).sw = x.sw ∧
      t.mem = s.mem ∧ OthersKeep s t c ∧
      (c < 256 → wdCounts s (ctxParcel s c) = true → sget 0 t.sec.wdStart (ctxParcel s c) = now s 0) ∧
      (c < 256 → wdCounts s (ctxParcel s c) = false → t.sec = s.sec) ∧
      (256 ≤ c → t.sec = s.sec ∧ t.links = (ctxKick s c).links))

/-! ## Sequencer and schuss access -/

/-- 07 R275: PSQW pushes lane 0 of ra where the transmit FIFO has room and says so in rd; PSQR pops the oldest word with bit 32 set, or
gives 0. -/
def Obligations.SequencerAccessUsesFifos : Prop :=
  ∀ (s : State) (c : Nat) (f : BitVec 23), Ready s c → rbOf f = 0 → selOf f < 32 →
    let n := c / 256 * 32 + selOf f
    seqReach s c n = 0 →
    let q := getSeq s n
    let levels (t : State) (x : Seq) : Seq := { x with txAt := (getSeq t n).txAt, rxAt := (getSeq t n).rxAt }
    (q.tx.length < 8 → ∃ t, exec (.psqw c f) s = .next t ∧ getV t c (rdOf f) = 1 ∧ (getCtx t c).pc = (getCtx s c).pc + 4 ∧
      getSeq t n = levels t { q with tx := q.tx ++ [(getV s c (raOf f)).setWidth 32] } ∧ (∀ m, m ≠ n → getSeq t m = getSeq s m) ∧
      (∀ m, m ≠ rdOf f → getV t c m = getV s c m) ∧ t.mem = s.mem) ∧
    (8 ≤ q.tx.length → ∃ t, exec (.psqw c f) s = .next t ∧ getV t c (rdOf f) = 0 ∧ RegistersOnly s t c [rdOf f] ((getCtx s c).pc + 4)) ∧
    (raOf f = 0 → q.rx = [] → ∃ t, exec (.psqr c f) s = .next t ∧ getV t c (rdOf f) = 0 ∧ RegistersOnly s t c [rdOf f] ((getCtx s c).pc + 4)) ∧
    (raOf f = 0 → ∀ w rest, q.rx = w :: rest → ∃ t, exec (.psqr c f) s = .next t ∧
      getV t c (rdOf f) = BitVec.ofNat 128 (w.toNat + 2 ^ 32) ∧ (getCtx t c).pc = (getCtx s c).pc + 4 ∧ getSeq t n = levels t { q with rx := rest } ∧
      (∀ m, m ≠ n → getSeq t m = getSeq s m) ∧ (∀ m, m ≠ rdOf f → getV t c m = getV s c m) ∧ t.mem = s.mem)

/-- 07 R276, R277, 12 R442 to R445: SCHR with SEL 0 gives the 16 bytes of the pair's next complete chunk, byte 0 lowest, which becomes
current; it waits for one that is still being received, and gives 0 with NOCHUNK where the frame has no more, was abandoned or is a
control frame, or no frame is served. With SEL 1 it gives the status. SCHW replaces the current chunk while the window still holds it and
says so in rd; after that it gives 0 and the late write is counted. -/
def Obligations.SchussAccessReadsAndReplacesChunks : Prop :=
  ∀ (s : State) (c k : Nat) (f : BitVec 23), Ready s c → hardPair s c = some k → pairReach s c = 0 →
    let pc := (getCtx s c).pc + 4
    let word (t : State) := getV t c (rdOf f)
    let none' : Prop := ∃ t, exec (.schr c f) s = .next t ∧ (getCtx t c).pc = pc ∧ word t = 0 ∧ (getPair t k).cur = none ∧
      (getPair t k).nochunk = true ∧ (∀ m, m ≠ rdOf f → getV t c m = getV s c m) ∧ t.mem = s.mem
    let turned : Prop := ∃ t, exec (.schw c f) s = .next t ∧ (getCtx t c).pc = pc ∧ word t = 0 ∧
      (∀ m, m ≠ rdOf f → getV t c m = getV s c m) ∧ t.mem = s.mem
    (servedIdx s k = none → fld f 11 8 = 0 →
      (selOf f = 0 → none') ∧
      (selOf f = 1 → ∃ t, exec (.schrStatus c f) s = .next t ∧ RegistersOnly s t c [rdOf f] pc ∧ word t = 2 ^ 25)) ∧
    (servedIdx s k = none ∨ (getPair s k).cur = none → rbOf f = 0 → selOf f = 0 → turned) ∧
    (∀ i fr, servedIdx s k = some i → (getPair s k).frames[i]? = some fr →
      let j := max fr.next fr.released
      (fld f 11 8 = 0 → selOf f = 0 → (fr.abandoned = true ∨ fr.control = true ∧ (1 ≤ fr.complete ∨ fr.ended = true) ∨
        fr.control = false ∧ fr.chunks ≤ j) → none') ∧
      (fld f 11 8 = 0 → selOf f = 0 → fr.abandoned = false → fr.control = false → j < fr.chunks → j < fr.complete →
        ∃ t, exec (.schr c f) s = .next t ∧ (getCtx t c).pc = pc ∧ (getPair t k).cur = some j ∧
          (∀ m, m ≠ rdOf f → getV t c m = getV s c m) ∧ t.mem = s.mem ∧
          word t = BitVec.ofNat 128 (leVal ((fr.bytes.drop (16 * j)).take 16))) ∧
      (fld f 11 8 = 0 → selOf f = 0 → fr.abandoned = false → fr.control = false → j < fr.chunks → fr.complete ≤ j →
        ∃ t, exec (.schr c f) s = .next t ∧ Awaits s t c .chunk) ∧
      ((getPair s k).cur = none → fld f 11 8 = 0 → selOf f = 1 →
        ∃ t, exec (.schrStatus c f) s = .next t ∧ RegistersOnly s t c [rdOf f] pc ∧ bit (word t) 27 = fr.late ∧
          bit (word t) 25 = (getPair s k).nochunk ∧ fld (word t) 0 24 = 0) ∧
      (∀ n, (getPair s k).cur = some n → fld f 11 8 = 0 → selOf f = 1 → n < 4096 →
        ∃ t, exec (.schrStatus c f) s = .next t ∧ RegistersOnly s t c [rdOf f] pc ∧ fld (word t) 8 12 = n ∧
          bit (word t) 27 = fr.late ∧ bit (word t) 25 = false ∧ fld (word t) 0 5 = min 16 (fr.bytes.length - 16 * n) ∧
          bit (word t) 26 = (decide (n + 1 = fr.chunks) && fr.ended && !fr.bad) ∧
          bit (word t) 24 = (decide (n + 1 = fr.chunks) && fr.ended)) ∧
      ∀ n, (getPair s k).cur = some n → rbOf f = 0 → selOf f = 0 →
        (n < fr.released → turned) ∧
        (fr.released ≤ n → ∃ t, exec (.schw c f) s = .next t ∧ (getCtx t c).pc = pc ∧ word t = 1 ∧
          (∀ m, m ≠ rdOf f → getV t c m = getV s c m) ∧ t.mem = s.mem ∧
          ∃ fr', (getPair t k).frames[i]? = some fr' ∧ fr'.repl = (n, getV s c (raOf f)) :: fr.repl.filter fun r => r.1 != n))

/-- 08 R296 to R302, R314: a customer instruction of one microword, SEQ DONE, that passes V[ra] (ASEL 1, ALU PASSA) into all four lanes of
V[rd] (DEST 1): rd takes ra, the program counter moves by 4, SW.RPT ends at 0, nothing else changes. -/
def Obligations.CustomerInstructionOfOneMicroword : Prop :=
  ∀ (s : State) (c n : Nat) (op : BitVec 5) (f : BitVec 23), Ready s c → (getCtx s c).micro = none →
    let q := engOf s c / 4
    let d := (getDec s (decKey (c / 256) q op.toNat)).w
    let u := getUWord s (uwKey (c / 256) q (fld d 0 13 - 0x1800))
    isBad s (c / 256) (posOf (wsBlock q (683 + op.toNat / 16))) = false →
    isBad s (c / 256) (posOf (wsBlock q ((fld d 0 13 - 0x1800) / 3))) = false →
    bit d 31 = true → fld d 29 2 ≠ 3 → fld d 25 4 = ctxParcel s c → (getCtx s c).priv.toNat ≤ fld d 29 2 → fld d 13 3 = 7 →
    0x1800 ≤ fld d 0 13 → u.tag.toNat = ctxParcel s c → u.w = BitVec.ofNat 160 (6 * 2 ^ 144 + 2 ^ 133 + 2 ^ 124 + 2 ^ 117 + 15 * 2 ^ 113) →
    (getCtx s c).tb.length ≤ 32 → (getCtx s c).stores.length ≤ 8 →
    ∃ t, exec (.customerInstruction c op ⟨f, n⟩) s = .next t ∧ StoresLater s t c [rdOf f] ((getCtx s c).pc + 4) ∧
      getV t c (rdOf f) = getV s c (raOf f) ∧ (getCtx t c).rpt = false ∧ (getCtx t c).tb = (getCtx s c).tb ∧ (getCtx t c).stores = (getCtx s c).stores

/-! ## Contexts between their instructions -/

/-- 05 R184, 10 R375: a pending event for an IDLE resident context of a RUNNING function starts an activation: program counter at the
event's vector, privilege 2, IE, EXL and RPT clear, the commit snapshot taken there, the source active for the context and no longer
pending. Inside an activation a winner that may be delivered at the boundary is (09 R347), the source active and the entry begun with the
event's vector. Where neither holds nothing is presented. -/
def Obligations.EventStartsActivationAtItsVector : Prop :=
  ∀ (s : State) (c : Nat),
    let x := getCtx s c
    let idle := x.st = .idle
    let inside := (x.st = .ready ∨ x.st = .active ∨ x.st = .stalled) ∧ x.mid = false ∧ x.stopped = false ∧ x.wait ≠ .release ∧
      x.haltReq = .none ∧ (x.stepping = true → x.stepEv = true)
    let vec (n : Nat) : BitVec 20 := (rg s (ta (c / 256) (0x511004 + n * 16))).setWidth 20
    let taken (t : State) (n : Nat) : Prop :=
      (getSrc t (c / 256 * 1024 + n)).act = true ∧ (getSrc t (c / 256 * 1024 + n)).holder = some (c % 256) ∧ t.mem = s.mem
    (∀ n, engReady s c = true → idle → x.resident = true → isRunning s (fnOfCtx s c) = true → ctxWinner s c = some n → n < 1024 →
      ∃ t, exec (.eventPresentation c) s = .next t ∧ (getCtx t c).pc = vec n &&& 0xFFFFC ∧ (getCtx t c).priv = 2 ∧
        (getCtx t c).ie = false ∧ (getCtx t c).exl = false ∧ (getCtx t c).rpt = false ∧ (getCtx t c).act = true ∧ (getCtx t c).tb = [] ∧
        (getCtx t c).v = x.v ∧ (getCtx t c).tsbp = x.tsbp ∧ (getCtx t c).snap.pc = vec n &&& 0xFFFFC ∧ (getCtx t c).snap.v = x.v ∧
        (getCtx t c).asrc.toNat = n ∧ ((getCtx t c).st = .ready ∨ (getCtx t c).st = .active) ∧ taken t n ∧ OthersKeep s t c) ∧
    (∀ n, engReady s c = true → inside → insideWinner s c = some n → n < 1023 → x.stores = [] → s.badBlk = [] →
      powered s (c / 256) domBUF = true → anyLost s (x.tsbp.toNat + 0x18) 8 = false →
      ∃ t, exec (.eventPresentation c) s = .next t ∧ taken t n ∧ (getCtx t c).isrc.toNat = n ∧ (getCtx t c).st = .stalled ∧
        (getCtx t c).entering = some { cause := 8, detail := n, addr := 0, epc := x.pc, vec := some (vec n) } ∧
        (getCtx t c).v = x.v ∧ (getCtx t c).pc = x.pc ∧ (getCtx t c).sw = x.sw ∧ (getCtx t c).tb = x.tb ∧ OthersKeep s t c) ∧
    (engReady s c = false ∨ idle ∧ (x.resident = false ∨ isRunning s (fnOfCtx s c) = false ∨ ctxWinner s c = none) ∨
      ¬idle ∧ (¬inside ∨ insideWinner s c = none) → exec (.eventPresentation c) s = .next s)

/-- 05 R190, R211, 04 R151, R172: a completed access lets its context go on with the answer, on a slot-mode engine not before its time, and
a block that has been sent again lets the fetch go on; a committed doorbell entry leaves the release and sets its source pending, and where
it is the last the context goes on; a rebuilt tag group leaves the rebuild and is counted. -/
def Obligations.WaitsEndWhenTheirCauseEnds : Prop :=
  (∀ (s : State) (c : Nat), (getCtx s c).st = .stalled →
    let x := getCtx s c
    let goes (got : List (Word × Nat × Option DWord)) : Prop :=
      ∃ t, exec (.accessComplete c) s = .next t ∧ (getCtx t c).wait = .none ∧ (getCtx t c).got = x.got ++ got ∧
        ((getCtx t c).st = .ready ∨ (getCtx t c).st = .active) ∧ Bookkeeping s t ∧ OthersGoOn s t c ∧ (getCtx t c).v = x.v ∧
        (getCtx t c).pc = x.pc
    (∀ a n d due, x.wait = .answered a n d due → if dueNow s (c / 256) due then goes [(a, n, d)] else exec (.accessComplete c) s = .next s) ∧
    ∀ b, x.wait = .resend b →
      if (getTile s (c / 256)).resend.any fun y => y.1 == b then exec (.accessComplete c) s = .next s else goes []) ∧
  (∀ (s : State) (c : Nat) (x : Store) (rest : List Store), (getCtx s c).rel = x :: rest →
    x.addr.toNat = ta (c / 256) 0x510000 → c < 2048 → x.size = 4 → checkAcc s (ctxAcc s c) x.addr.toNat 4 true = 0 →
    doorbellOk s (ctxAcc s c) (c / 256) (x.data.toNat % 1024) = true →
    ∃ t, exec (.commitReleaseEntry c) s = .next t ∧ (getCtx t c).rel = rest ∧ (getCtx t c).v = (getCtx s c).v ∧
      (getSrc t (c / 256 * 1024 + x.data.toNat % 1024)).pend = true ∧ t.mem = s.mem ∧
      (rest ≠ [] → (getCtx t c).pc = (getCtx s c).pc ∧ (x.bad = false → Bookkeeping s t)) ∧
      (rest = [] → (getCtx s c).act = true → (getCtx s c).st = .stalled → (getCtx s c).ending = false →
        ((fnOfCtx s c).map (fnState s)).getD .unloaded ≠ .draining →
        (getCtx t c).wait = .none ∧ (getCtx t c).pc = (getCtx s c).pc ∧ ((getCtx t c).st = .ready ∨ (getCtx t c).st = .active))) ∧
  (∀ (s : State) (t g : Nat), (getTile s t).rebuild.contains g = true →
    ∃ s', exec (.tagGroupRebuild t g) s = .next s' ∧ (getTile s' t).rebuild = (getTile s t).rebuild.filter (· != g) ∧
      fld (rg s' (ta t 0x580010)) 24 8 = min (fld (rg s (ta t 0x580010)) 24 8 + 1) 255 ∧
      (∀ u, u ≠ t → getTile s' u = getTile s u) ∧ ∀ a, a ≠ ta t 0x580010 → rg s' a = rg s a)

/-- 05 R186, 04 R170: at the start of a parcel's slot on a slot-mode engine whose contexts no event waits for, the context that the engine
chooses becomes ACTIVE and every other resident context is not. -/
def Obligations.SlotStartRunsChosenContext : Prop :=
  ∀ (s : State) (t e c : Nat), slotMode s t e = true → (∀ d, ctxWinner s d = none) → pick s t e = some c →
    (∀ d ∈ residents s t e, (getCtx s d).st = .active → (getCtx s c).st ≠ .active ∨ d = c) →
    ∃ s', exec (.parcelSlotStart t e) s = .next s' ∧ (getCtx s' c).st = .active ∧
      (∀ d ∈ residents s t e, d ≠ c → (getCtx s' d).st ≠ .active) ∧ OthersKeep s s' c ∧ Bookkeeping s s'

/-- 05 R194 to R197: a debugger's writes of a HALTED context's window: CTX_SW sets PRIV, IE and RPT and leaves EXL; CTX_TSBP takes an
address that passes, with bits 6:0 zero; CTX_VDATA3 puts the held lanes and lane 3 into the register that CTX_VSEL selects. -/
def Obligations.WindowWritesChangeHaltedContext : Prop :=
  ∀ (s : State) (b : Bool) (c : Nat) (v : Word), c < 2048 → (∀ i, i < 5 → isBad s (c / 256) (ctxPos (c % 256) + i) = false) →
    let x := getCtx s c
    (MayWrite s (.dbg b) (winA c 0x04) v → fld v 10 2 ≠ 3 → (ceiling s (ctxParcel s c)).toNat ≤ fld v 10 2 →
      ∃ t, exec (.ctxSwWrite (.dbg b) c v) s = .next t ∧ Accepted t ∧ (getCtx t c).priv.toNat = fld v 10 2 ∧ (getCtx t c).ie = bit v 8 ∧
        (getCtx t c).rpt = bit v 0 ∧ (getCtx t c).exl = x.exl ∧ (getCtx t c).v = x.v ∧ (getCtx t c).pc = x.pc ∧ OthersKeep s t c ∧ t.mem = s.mem) ∧
    (MayWrite s (.dbg b) (winA c 0x0C) v → tsbpOk s c v = true →
      ∃ t, exec (.ctxTsbpWrite (.dbg b) c v) s = .next t ∧ Accepted t ∧ (getCtx t c).tsbp = v &&& ~~~0x7F ∧ (getCtx t c).v = x.v ∧
        (getCtx t c).pc = x.pc ∧ OthersKeep s t c ∧ t.mem = s.mem) ∧
    (MayWrite s (.dbg b) (winA c 0x3C) v → (∀ e ∈ x.vheld, e.1 < 3) → (x.vheld.map Prod.fst).Pairwise (· ≠ ·) →
      ∃ t, exec (.ctxVdata3Write (.dbg b) c v) s = .next t ∧ Accepted t ∧
        (∀ k, k < 4 → elem (getV t c x.vsel.toNat) 32 k =
          if k = 3 then v else ((x.vheld.find? fun e => e.1 == k).map Prod.snd).getD (elem (getV s c x.vsel.toNat) 32 k)) ∧
        (∀ m, m ≠ x.vsel.toNat → getV t c m = getV s c m) ∧ (getCtx t c).pc = x.pc ∧ (getCtx t c).vheld = [] ∧ OthersKeep s t c ∧ t.mem = s.mem)

/-! ## Registers, events, mailboxes, locks -/

/-- 00 R22, 04 R147: a register access that the checks refuse, or that reaches no tile (13 R484), has no effect but a count of refusals; the
agent is told, a debugger by its sticky flag too. -/
def Obligations.RefusedRegisterAccessHasNoEffect : Prop :=
  ∀ (s : State) (ag : Agent) (addr v : Word),
    let reached := reaches s ag (addr.toNat / 0x1000000) = true
    let refused (i : Instr) : Prop := ∃ t, exec i s = .next t ∧ t.result.refused = true ∧ t.result.data = 0 ∧
      t = { s with regs := t.regs, result := t.result, dbg := { s.dbg with refused := t.dbg.refused } } ∧
      (∀ b, ag = .dbg b → t.dbg.refused = true) ∧ ∀ a, rg t a = rg s a ∨ ∃ u p, a = ta u (0x5C0380 + p * 4)
    (¬reached ∨ checkAcc s (agentAcc s ag addr.toNat v) addr.toNat 4 true ≠ 0 → refused (.registerWrite ag addr v)) ∧
    (¬reached ∨ checkAcc s (agentAcc s ag addr.toNat 0) addr.toNat 4 false ≠ 0 → refused (.readClear ag addr))

/-- 00 R12, R14, R16, R17: a write that the checks pass to a register without an effect of its own takes each field by its access code: an
RW bit as written, a W1C bit cleared where 1 is written, every other bit kept, in the staged copy where the register has one (03 R121); a
read of such a register returns it and clears the RC bits returned as 1, which a debugger's read without the consume bit does not. -/
def Obligations.AccessCodesDecideWhatAnAccessChanges : Prop :=
  ∀ (s : State) (ag : Agent) (addr v : Word) (d : Desc),
    let t := addr.toNat / 0x1000000
    let off := addr.toNat % 0x1000000
    let a (w : Word) := agentAcc s ag addr.toNat w
    0x500000 ≤ off → ¬isPmcCfg addr.toNat →
    (MayWrite s ag addr.toNat v → regDesc s (a v) t off = some d →
      (∀ u : State, regWrite u d (a v) t off v false = (plainWrite u d addr.toNat v, .ok)) →
      ∃ u, exec (.registerWrite ag addr v) s = .next u ∧ Accepted u ∧
        (∀ n, n < 32 → bit (plainVal u d addr.toNat) n =
          if bit d.w1c n && bit v n then false else if bit d.rw n then bit v n else bit (plainVal s d addr.toNat) n) ∧
        (if d.staged then u.staged = (setSg s addr.toNat (sg u addr.toNat)).staged ∧ Elsewhere { s with staged := u.staged } u noReg
         else Elsewhere s u (· = addr.toNat))) ∧
    (MayRead s ag addr.toNat → regDesc s (a 0) t off = some d → badStore s t off = none →
      (∀ u : State, regRead u d (a 0) t off = plainRead u d (a 0) addr.toNat) → d.staged = false →
      ∃ u, exec (.readClear ag addr) s = .next u ∧ Accepted u ∧ u.result.data = (rg s addr.toNat).setWidth 64 ∧
        rg u addr.toNat = (if (a 0).effect then rg s addr.toNat &&& ~~~d.rc else rg s addr.toNat) ∧ Elsewhere s u (· = addr.toNat))

/-- 10 R370, R380, R382, R387, R393: a doorbell and PSET set their source pending, with MISS where it was pending or active; PCLR clears
pending; a claim delivers the winner to the host and returns it; a completion ends it. -/
def Obligations.EventRegistersMoveTheirSource : Prop :=
  ∀ (s : State) (ag : Agent) (t n p : Nat) (v : Word), t < 8 → n < 1023 → p < 16 →
    let k := t * 1024 + n
    let x := getSrc s k
    (fld v 0 10 = n → MayWrite s ag (ta t 0x510000) v → doorbellOk s (agentAcc s ag (ta t 0x510000) v) t n = true →
      ∃ s', exec (.doorbell ag t v) s = .next s' ∧ Accepted s' ∧ (getSrc s' k).pend = true ∧ (getSrc s' k).act = x.act ∧
        (x.pend = true ∨ x.act = true → (getSrc s' k).miss = true) ∧ s'.mem = s.mem) ∧
    (MayWrite s ag (ta t (0x511008 + 16 * n)) 0x10 →
      ∃ s', exec (.pset ag t n) s = .next s' ∧ Accepted s' ∧ (getSrc s' k).pend = true ∧ (getSrc s' k).act = x.act ∧ s'.mem = s.mem) ∧
    (MayWrite s ag (ta t (0x511008 + 16 * n)) 0x20 →
      ∃ s', exec (.pclr ag t n) s = .next s' ∧ Accepted s' ∧ (getSrc s' k).pend = false ∧ (getSrc s' k).act = x.act ∧ s'.mem = s.mem) ∧
    (MayRead s ag (ta t (0x510100 + 16 * p)) → (agentAcc s ag (ta t (0x510100 + 16 * p)) 0).effect = true → hostWinner s t p = some n →
      ∃ s', exec (.eventClaim ag t p) s = .next s' ∧ Accepted s' ∧ s'.result.data = BitVec.ofNat 64 n ∧ (getSrc s' k).act = true ∧
        (getSrc s' k).holder = none ∧ s'.mem = s.mem) ∧
    (fld v 0 10 = n → MayWrite s ag (ta t (0x510104 + 16 * p)) v → srcExists t n = true → srcOwner s t n = p → x.act = true → x.holder = none →
      ∃ s', exec (.eventHostComplete ag t p v) s = .next s' ∧ Accepted s' ∧ (getSrc s' k).act = false ∧
        (x.lvl = true → (getSrc s' k).pend = true) ∧ s'.mem = s.mem)

/-- 15 R534 to R539: a word written to SEND joins the agent's open message; SENDEND closes it and a mailbox with room takes it, with the
sender's stamp and the next SEQ; an ACK that names the oldest message removes it, another sets BADACK; RRST empties a class C mailbox. -/
def Obligations.MailboxesQueueClosedMessages : Prop :=
  ∀ (s : State) (ag : Agent) (m : Nat) (v : Word), m < 256 →
    let x := getMbx s m
    (let a := agentAcc s ag (mbxA m 0x10) v
     MayWrite s ag (mbxA m 0x10) v → openMsg s a = none →
      ∃ t, exec (.mailboxSend ag m v) s = .next t ∧ Accepted t ∧ openMsg t a = some (m, [v]) ∧ getMbx t m = x ∧ t.mem = s.mem) ∧
    (let a := agentAcc s ag (mbxA m 0x14) v
     ∀ ws, MayWrite s ag (mbxA m 0x14) v → openMsg s a = some (m, ws) → ws.length < 16 → m / 32 = homeOf a → x.msgs.length < 8 →
      ∃ t, exec (.mailboxSendEnd ag m v) s = .next t ∧ Accepted t ∧ openMsg t a = none ∧ (getMbx t m).seq = x.seq + 1 ∧
        (getMbx t m).msgs = x.msgs ++ [{ words := ws ++ [v], stamp := a.ident, seq := x.seq }] ∧
        (∀ k, k ≠ m → getMbx t k = getMbx s k) ∧ t.mem = s.mem) ∧
    (∀ h rest, MayWrite s ag (mbxA m 0x18) v → x.msgs = h :: rest →
      ∃ t, exec (.mailboxAck ag m v) s = .next t ∧ Accepted t ∧ (∀ k, k ≠ m → getMbx t k = getMbx s k) ∧ t.mem = s.mem ∧
        (if h.seq.toNat = fld v 0 16 then (getMbx t m).msgs = rest
         else (getMbx t m).msgs = x.msgs ∧ bit (rg t (mbxA m 0x08)) 0 = true)) ∧
    (MayWrite s ag (mbxA m 0x1C) 1 → mbxClassL s m = false →
      ∃ t, exec (.rrst ag m) s = .next t ∧ Accepted t ∧ (getMbx t m).msgs = [] ∧ (getMbx t m).seq = x.seq ∧
        (∀ k, k ≠ m → getMbx t k = getMbx s k) ∧ t.mem = s.mem)

/-- 15 R541 to R544: a read of a free lock takes it and returns 0; of one held by another returns the holder; a release by the holder, and a
debugger's force, free the lock that the value names, and a release by another agent does not. -/
def Obligations.LocksHaveOneHolder : Prop :=
  ∀ (s : State) (ag : Agent) (n : Nat) (v : Word), n < 512 →
    let t := n / 64
    (let a := agentAcc s ag (ta t (0x521000 + 4 * (n % 64))) 0
     MayRead s ag (ta t (0x521000 + 4 * (n % 64))) → a.effect = true →
      ∃ s', exec (.lockRead ag n) s = .next s' ∧ Accepted s' ∧ (∀ k, k ≠ n → getLock s' k = getLock s k) ∧ s'.mem = s.mem ∧
        (getLock s n = 0 → s'.result.data = 0 ∧ getLock s' n = a.ident) ∧ (getLock s n = a.ident → s'.result.data = 0 ∧ getLock s' n = a.ident) ∧
        (getLock s n ≠ 0 → getLock s n ≠ a.ident → s'.result.data = (getLock s n).setWidth 64 ∧ getLock s' n = getLock s n)) ∧
    (let a := agentAcc s ag (ta t 0x521100) v
     MayWrite s ag (ta t 0x521100) v → fld v 0 6 = n % 64 → allows s a t (lockOwner s n) rSWHD true = true →
      ∃ s', exec (.lockRelease ag t v) s = .next s' ∧ Accepted s' ∧ (∀ k, k ≠ n → getLock s' k = getLock s k) ∧ s'.mem = s.mem ∧
        getLock s' n = if getLock s n = a.ident then 0 else getLock s n) ∧
    (∀ b, ag = .dbg b → MayWrite s ag (ta t 0x521104) v → fld v 0 6 = n % 64 → dbgHolds s t (lockOwner s n) 2 = true →
      ∃ s', exec (.lockForce ag t v) s = .next s' ∧ Accepted s' ∧ (∀ k, k ≠ n → getLock s' k = getLock s k) ∧ s'.mem = s.mem ∧ getLock s' n = 0)

/-! ## The host port -/

/-- 15 R518 to R521, R525: a read of tile 0's buffer memory is answered with its bytes in the lanes of the address; a write changes its
bytes, no others, and is answered without error; responses join the queue at its end and leave it at its front, an answer behind those of
earlier requests to the same tile; one that has waited 4 µs sets its requester's SLOW. -/
def Obligations.HostRequestsAreAnsweredInOrder : Prop :=
  (∀ (s : State) (rid : Nat) (tag : BitVec 5) (addr : Word) (size : Nat) (data : BitVec 64), s.kpTest = false → s.hp.held = [] →
    addr.toNat < 0x400000 → isBad s 0 (tagPos + addr.toNat / 4096) = false → isBad s 0 (blockOf addr.toNat) = false →
    (getTile s 0).rebuild.contains (addr.toNat / 4096) = false →
    let answers (t : State) (r : HostReq) (v : Nat) (rd : BitVec 64) : Prop :=
      if s.hp.out.any fun x => x.req.tile == 0 then t.hp.out = s.hp.out ++ [{ req := r, tag := 0, done := some (v, false) }]
      else t.hp.resp = s.hp.resp ++ [{ req := r, rd, err := false, at_ := now s 0 }]
    (∀ r : HostReq, r = { rid, tag, wr := false, addr, size, data := 0 } → hostBlocked s r = false →
      checkAcc s (hostAcc s r) addr.toNat size false = 0 → isLost s addr.toNat = false →
      ∃ t, exec (.hostRead rid tag addr size) s = .next t ∧ t.mem = s.mem ∧
        answers t r (memRead s addr.toNat size) (BitVec.ofNat 64 (memRead s addr.toNat size * 2 ^ (8 * (addr.toNat % 8))))) ∧
    (∀ r : HostReq, r = { rid, tag, wr := true, addr, size, data } → hostBlocked s r = false →
      checkAcc s (hostAcc s r) addr.toNat size true = 0 →
      ∃ t, exec (.hostWrite rid tag addr size data) s = .next t ∧ answers t r 0 0 ∧
        (∀ i, i < size → sget 0 t.mem (addr.toNat + i) = BitVec.ofNat 8 (data.toNat / 256 ^ (addr.toNat % 8 + i))) ∧
        ∀ k, (k < addr.toNat ∨ addr.toNat + size ≤ k) → sget 0 t.mem k = sget 0 s.mem k)) ∧
  (∀ (s : State) (x : HostResp) (rest : List HostResp), s.hp.resp = x :: rest → s.hp.held = [] →
    exec .hostResponseTaken s = .next { s with hp := { s.hp with resp := rest } }) ∧
  (∀ (s : State) (x : HostResp) (rest : List HostResp), s.hp.resp = x :: rest → x.req.rid < 32 → atOrAfter (now s 0) (x.at_ + 4000) = true →
    ∃ t, exec .hostResponseSlow s = .next t ∧ (sget {} t.hp.stat x.req.rid).slow = true ∧ t.hp.resp = s.hp.resp ∧
      (∀ k, k ≠ x.req.rid → sget {} t.hp.stat k = sget {} s.hp.stat k) ∧ t.mem = s.mem ∧ t.regs = s.regs)

/-! ## The Datum, the flash, functions, security, watchdogs -/

/-- 02 R63, R65, R67, R68, R76 to R81: a lost or out-of-range reference sets HOLD, its cause and UNACK, a resumed one clears HOLD and sets
RESUMED; TMR_DADJ is clamped to ±1000 ppm; a complete window's counts go to PACE and PACE_MIN with their alarms, and eight good ones end an
alarm; the window in which a quad woke shows nothing; FLOOR below 400 is ignored with BADW; RSTMIN resets the minima. -/
def Obligations.DatumFollowsReferenceAndPaceIsWatched : Prop :=
  ∀ (s : State) (t : Nat), t < s.nTiles →
    let stat := ta t 0x55F014
    (s.begun = true → ∃ u, exec (.referenceLost t) s = .next u ∧ bit (rg u stat) 0 = true ∧ bit (rg u stat) 1 = true ∧
      bit (rg u (ta t 0x580000)) 15 = true ∧ Elsewhere s u (fun a => a = stat ∨ isFlt a)) ∧
    (s.begun = true → ∃ u, exec (.referenceOutOfRange t) s = .next u ∧ bit (rg u stat) 0 = true ∧ bit (rg u stat) 2 = true ∧
      bit (rg u (ta t 0x580000)) 15 = true ∧ Elsewhere s u (fun a => a = stat ∨ isFlt a)) ∧
    (s.begun = true → bit (rg s stat) 0 = true → ∃ u, exec (.referenceResumed t) s = .next u ∧ bit (rg u stat) 0 = false ∧
      bit (rg u stat) 3 = true ∧ (powered s t domBUF = true → (getSrc u (t * 1024 + 0x3C2)).pend = true) ∧ Elsewhere s u (· = stat)) ∧
    (∀ ag v, MayWrite s ag (ta 0 0x55F010) v → ∃ u, exec (.tmrDadjWrite ag 0 v) s = .next u ∧ Accepted u ∧
      (rg u (ta 0 0x55F010)).toInt = max (-1024000000) (min 1024000000 v.toInt) ∧
      (1024000000 < v.toInt ∨ v.toInt < -1024000000 → bit (rg u (ta 0 0x55F014)) 4 = true) ∧
      Elsewhere s u (fun a => a = ta 0 0x55F010 ∨ a = ta 0 0x55F014)) ∧
    (s.begun = true → ∀ q0 q1 q2 q3, ∃ u, exec (.paceWindowEnd t q0 q1 q2 q3) s = .next u ∧ u.mem = s.mem ∧ u.ctxs = s.ctxs ∧
      ∀ q n, [q0, q1, q2, q3][q]? = some n → powered s t (domQ q) = true →
        let ctl := rg s (ta t 0x55F020)
        let floor := fld ctl 0 10
        let pace := ta t (0x55F030 + q * 4)
        let stat := ta t 0x55F024
        (bit (getTile s t).paceNew q = true → rg u pace = rg s pace ∧ bit (getTile u t).paceNew q = false) ∧
        (bit (getTile s t).paceNew q = false → fld (rg u pace) 0 10 = min n 1023 ∧ bit (rg u stat) (8 + q) = true ∧
          fld (rg u pace) 16 10 = min (fld (rg s pace) 16 10) (min n 1023) ∧
          (floor ≠ 0 → min n 1023 < floor → bit (rg u stat) q = true ∧ bit (rg u stat) (4 + q) = true ∧
            vget 0 (getTile u t).goodWin q = 0) ∧
          (floor = 0 ∨ floor ≤ min n 1023 → floor + fld ctl 12 4 ≤ min n 1023 →
            vget 0 (getTile u t).goodWin q = min (vget 0 (getTile s t).goodWin q + 1) 8 ∧
            (7 ≤ vget 0 (getTile s t).goodWin q → bit (rg u stat) q = false)))) ∧
    (∀ ag v, MayWrite s ag (ta t 0x55F020) v → ∃ u, exec (.paceCtlWrite ag t v) s = .next u ∧ Accepted u ∧ u.mem = s.mem ∧
      (if fld v 0 10 < 400 then rg u (ta t 0x55F020) = rg s (ta t 0x55F020) ∧ bit (rg u (ta t 0x55F024)) 13 = true
       else rg u (ta t 0x55F020) = v &&& 0x1F3FF ∧ rg u (ta t 0x55F024) = rg s (ta t 0x55F024))) ∧
    (∀ ag, MayWrite s ag (ta t 0x55F020) ((rg s (ta t 0x55F020) &&& 0x1F3FF) ||| 0x20000) → 400 ≤ fld (rg s (ta t 0x55F020)) 0 10 →
      ∃ u, exec (.rstmin ag t) s = .next u ∧ Accepted u ∧ rg u (ta t 0x55F020) = rg s (ta t 0x55F020) &&& 0x1F3FF ∧
        (∀ q, q < 4 → fld (rg u (ta t (0x55F030 + q * 4))) 16 10 = 0x3FF ∧
          fld (rg u (ta t (0x55F030 + q * 4))) 0 10 = fld (rg s (ta t (0x55F030 + q * 4))) 0 10) ∧
        Elsewhere s u (fun a => a = ta t 0x55F020 ∨ ∃ q, q < 4 ∧ a = ta t (0x55F030 + q * 4)))

/-- 03 R93 to R96: a read of CFG_NVM_OWN takes a free port (a debugger's with the consume bit); the owner's REL frees it; a command inside its
parcel's area and granules is accepted, issued while no reload reads or waits, and done: a page read into the granule, the granule programmed
into the page (which the model lets clear bits only: notes/assumptions/8.md), or a sector erased; a bound exceeded sets the failure bit. -/
def Obligations.FlashPortServesItsOwner : Prop :=
  ∀ (s : State) (ag : Agent),
    (MayRead s ag 0x500020 → s.nvm.startOwned = false →
      let a := agentAcc s ag 0x500020 0
      ∃ t, exec (.nvmPortAcquire ag) s = .next t ∧ Accepted t ∧
        (s.nvm.owner = 0 → a.effect = false → t.result.data = 0 ∧ t.nvm = s.nvm ∧ rg t nvmStatA = rg s nvmStatA) ∧
        (s.nvm.owner = 0 → a.effect = true → t.result.data = 0 ∧ t.nvm = { s.nvm with owner := a.ident } ∧ rg t nvmStatA = 0) ∧
        (s.nvm.owner ≠ 0 → t.result.data = s.nvm.owner.setWidth 64 ∧ t.nvm = s.nvm) ∧
        Elsewhere { s with nvm := t.nvm } t (· = nvmStatA)) ∧
    (MayWrite s ag 0x500020 1 → s.nvm.startOwned = false →
      ∃ t, exec (.nvmPortRelease ag) s = .next t ∧ Accepted t ∧ t.nvm = { s.nvm with owner := 0 } ∧ rg t nvmStatA = 0 ∧
        Elsewhere { s with nvm := t.nvm } t (· = nvmStatA)) ∧
    (∀ gran : BitVec 14, ∀ x ∈ [(Instr.nvmReadPage ag gran, 1), (.nvmProgramPage ag gran, 2), (.nvmEraseSector ag gran, 3)],
      let page := fld (rg s 0x500024) 0 20
      MayWrite s ag 0x500028 (fields [(30, 2, x.2), (0, 14, gran.toNat)]) → s.nvm.cmd = none →
      (granTag s 0 gran.toNat).1 = nvmParcel s → nvmInArea s (nvmParcel s) page = true →
      ∃ t, exec x.1 s = .next t ∧ Accepted t ∧
        t.nvm = { s.nvm with cmd := some { op := BitVec.ofNat 2 x.2, page := BitVec.ofNat 20 page, gran, by_ := s.nvm.owner, issued := false } } ∧
        Elsewhere { s with nvm := t.nvm } t noReg) ∧
    (∀ c, s.nvm.cmd = some c → c.issued = false → s.nvm.reading = none → s.nvm.reloads = [] →
      exec .nvmCommandIssue s = .next { s with nvm := { s.nvm with cmd := some { c with issued := true } } }) ∧
    (∀ c, s.nvm.cmd = some c → c.issued = true → (c.op = 1 ∨ c.op = 2) → (tagReady s (c.gran.toNat * 256)).2 = false →
      ∃ t, exec .nvmCommandDone s = .next t ∧ t.nvm = { s.nvm with cmd := none } ∧ t.mem = s.mem ∧ t.flash = s.flash) ∧
    (∀ c, s.nvm.cmd = some c → c.issued = true → c.by_ = s.nvm.owner → c.op ≠ 0 →
      (c.op ≠ 3 → tagReady s (c.gran.toNat * 256) = (s, true) ∧ s.badBlk = []) →
      ∃ t, exec .nvmCommandDone s = .next t ∧ t.nvm = { s.nvm with cmd := none } ∧ bit (rg t nvmStatA) 1 = true ∧
        (let page := c.page.toNat * 256; let gran := c.gran.toNat * 256
         if c.op = 1 then (∀ k, sget 0 t.mem k = if gran ≤ k ∧ k < gran + 256 then sget 0xFF s.flash (page + (k - gran)) else sget 0 s.mem k) ∧
            t.flash = s.flash
         else if c.op = 2 then (∀ k, sget 0xFF t.flash k =
              if page ≤ k ∧ k < page + 256 then sget 0xFF s.flash k &&& sget 0 s.mem (gran + (k - page)) else sget 0xFF s.flash k) ∧ t.mem = s.mem
         else (∀ k, sget 0xFF t.flash k = if k / 4096 = c.page.toNat / 16 then 0xFF else sget 0xFF s.flash k) ∧ t.mem = s.mem)) ∧
    (∀ c, s.nvm.cmd = some c → c.issued = true → c.by_ = s.nvm.owner → c.op ≠ 1 →
      ∃ t, exec .nvmCommandTimeout s = .next t ∧ t.nvm = { s.nvm with cmd := none } ∧ bit (rg t nvmStatA) 4 = true ∧ t.flash = s.flash ∧
        Elsewhere { s with nvm := t.nvm } t (· = nvmStatA))

/-- 03 R112, R113, R115, R116, R119, R123: what the fields of FN_CTL do in the states that take them: an enable that passes every check makes
the function RUNNING with its contexts resident, another shows its reason; EN ← 0 starts a drain with its limit; RELOAD makes it LOADING in
the queue; UNLOAD leaves it UNLOADED, at once unless a context is inside one of its microsequences. -/
def Obligations.FunctionControlMovesFunctionStates : Prop :=
  ∀ (s : State) (ag : Agent) (f : Nat), f < 64 →
    let addr := 0x501000 + 16 * f
    let x := getFn s f
    let full (v : Word) : Prop := MayWrite s ag addr v ∧ allows s (agentAcc s ag addr v) 0 (fnParcel s f) rSHD true = true
    (full (fnCtlWord s f 1) → x.st = .quiescent → x.leaving = false →
      ∃ t, exec (.functionEnable ag f) s = .next t ∧ Accepted t ∧ (∀ g, g ≠ f → getFn t g = getFn s g) ∧
        (enableCheck s f = 0 → (getFn t f).st = .running ∧ (getFn t f).reason = 0 ∧ (getFn t f).gen = x.gen + 1 ∧
          ∀ c ∈ ctxsOfFn s f, (getCtx t c).resident = true ∧ ((getCtx t c).st = .idle ∨ (getCtx t c).st = .halted)) ∧
        (enableCheck s f ≠ 0 → (getFn t f).st = .quiescent ∧ (getFn t f).reason.toNat = enableCheck s f % 256 ∧ t.ctxs = s.ctxs)) ∧
    (MayWrite s ag addr (fnCtlWord s f 0) → x.st = .running → x.dlim ≠ 0 →
      ∃ t, exec (.functionDisable ag f) s = .next t ∧ Accepted t ∧ (∀ g, g ≠ f → getFn t g = getFn s g) ∧ (getFn t f).st = .draining ∧
        (getFn t f).drainAt = some (now s 0 + BitVec.ofNat 64 (x.dlim.toNat * 1000000)) ∧ Elsewhere { s with fns := t.fns } t noReg) ∧
    (∀ slot, full (setBit (fnCtlWord s f 4) 4 slot) → (x.st = .quiescent ∨ x.st = .unloaded) → x.leaving = false →
      ∃ t, exec (.functionReload ag f slot) s = .next t ∧ Accepted t ∧ (∀ g, g ≠ f → getFn t g = getFn s g) ∧ (getFn t f).st = .loading ∧
        (getFn t f).reason = 0 ∧ t.nvm.reloads = s.nvm.reloads ++ [f * 2 + slot.toNat] ∧ t.mem = s.mem) ∧
    (full (fnCtlWord s f 8) → x.st = .quiescent → x.leaving = false →
      ∃ t, exec (.functionUnload ag f) s = .next t ∧ Accepted t ∧ (∀ g, g ≠ f → getFn t g = getFn s g) ∧ t.mem = s.mem ∧
        (∀ k, (getCodeTag s k).fn = some f → (getCodeTag t k).tag = 0) ∧ (∀ k, (getDec s k).fn = some f → bit (getDec t k).w 31 = false) ∧
        (insideOf s f = true → getFn t f = { x with dlim := (getFn t f).dlim, slot := false, reason := 0, leaving := true }) ∧
        (insideOf s f = false → (getFn t f).st = .unloaded ∧ (getFn t f).reason = 0 ∧ (getFn t f).sched = none ∧
          ∀ c ∈ ctxsOfFn s f, (getCtx t c).st = .free ∧ (getCtx t c).v = Vector.replicate 16 0))

/-- 03 R96, R113, R116, R123: the events behind those states: the first reload of the queue reads; one that cannot be read ends in UNLOADED with
its reason, and one whose accepted directory gives the function a schedule alone ends in QUIESCENT with that schedule and its contexts
PARKED; an unload that waited is carried out; its zero-fill clears the function's code; a drain that is done, or whose limit passes, ends in QUIESCENT. -/
def Obligations.ReloadsAndDrainsEndInTheirStates : Prop :=
  ∀ (s : State) (f : Nat),
    (∀ r rest, s.nvm.reloads = r :: rest → s.nvm.reading = none → s.nvm.cmd = none → sealHolds s (fnParcel s (r / 2)) = false →
      (getFn s (r / 2)).zeroing = false → exec .reloadStart s = .next { s with nvm := { s.nvm with reloads := rest, reading := some r, secHits := 0 } }) ∧
    (∀ r e, s.nvm.reading = some r → f = r / 2 → (∀ g, g < nFn s → (getFn s g).zeroing = false) → insideOf s f = false →
      parcelEntry s (fnParcel s f) = some e →
      (∃ t, exec (.reloadComplete false) s = .next t ∧ t.nvm.reading = none ∧ (getFn t f).st = .unloaded ∧ (getFn t f).reason = 0x20 ∧
        (∀ g, g ≠ f → getFn t g = getFn s g)) ∧
      (∀ x bs, let b := dirBytes s e (r % 2 == 1)
        dirRefusal (fnParcel s f) e b = 0 → ((dirEnts b).filter fun y => y.fn == f) = [x] → x.kind = 4 →
        secPayload s (fnParcel s f) e x = (0, bs) → (rg s (arcA (fnParcel s f))).toNat ≤ x.epoch → fnParcel s f < 16 →
        (getFn s f).sched = none → s.nvm.secHits < 2 →
        ∃ t, exec (.reloadComplete true) s = .next t ∧ t.nvm.reading = none ∧ (getFn t f).st = .quiescent ∧ (getFn t f).reason = 0 ∧
          (getFn t f).epoch = BitVec.ofNat 16 x.epoch ∧ (getFn t f).sched = some (schedOf bs) ∧
          (∀ c ∈ ctxsOfFn s f, (getCtx t c).st = .parked) ∧ (∀ g, g ≠ f → getFn t g = getFn s g) ∧ t.mem = s.mem)) ∧
    ((getFn s f).zeroing = false → (getFn s f).leaving = true → insideOf s f = false →
      ∃ t, exec (.unloadZeroFillComplete f) s = .next t ∧ (getFn t f).st = .unloaded ∧ (getFn t f).zeroing = true ∧ t.mem = s.mem ∧
        (∀ g, g ≠ f → getFn t g = getFn s g) ∧ ∀ c ∈ ctxsOfFn s f, (getCtx t c).st = .free) ∧
    ((getFn s f).zeroing = true → insideOf s f = false →
      ∃ t, exec (.unloadZeroFillComplete f) s = .next t ∧ (getFn t f).zeroing = false ∧ t.mem = s.mem ∧ (∀ g, g ≠ f → getFn t g = getFn s g) ∧
        ∀ k, (getCodeTag s k).fn = some f → getCodeTag t k = {} ∧
          ∀ i, i < 64 → sget 0 t.code (codeAddr (k / 16384) (k % 16384 * 64) + i) = 0) ∧
    ((getFn s f).st = .draining → fnDrained s f = true →
      ∃ t, exec (.drainComplete f) s = .next t ∧ (getFn t f).st = .quiescent ∧ (getFn t f).drainAt = none ∧
        (getFn t f).forced = (getFn s f).forced ∧ (∀ c ∈ ctxsOfFn s f, (getCtx t c).resident = false) ∧ t.mem = s.mem) ∧
    (∀ d, (getFn s f).st = .draining → (getFn s f).drainAt = some d → atOrAfter (now s 0) d = true →
      ((ctxsOfFn s f).any (heldByDbg s)) = false →
      ∃ t, exec (.drainLimitExpired f) s = .next t ∧ (getFn t f).st = .quiescent ∧ (getFn t f).drainAt = none ∧ (getFn t f).forced = true ∧
        (∀ c ∈ ctxsOfFn s f, (getCtx t c).resident = false) ∧ t.mem = s.mem)

/-- 04 R161 to R168, R654: grants, challenges, the verification of an unlock message and its three ends. -/
def Obligations.UnlockFollowsItsChallenge : Prop :=
  ∀ (s : State) (ag : Agent),
    (∀ p v, p < 16 → MayWrite s ag (0x5C0300 + 4 * p) v →
      ∃ t, exec (.grantChange ag p v) s = .next t ∧ Accepted t ∧ rg t (0x5C0300 + 4 * p) = (v &&& 0xFFFF) ||| BitVec.ofNat 32 (2 ^ p) ∧
        (∀ q, q < 16 → q ≠ p → rg t (0x5C0300 + 4 * q) = rg s (0x5C0300 + 4 * q)) ∧ t.mem = s.mem ∧ t.sec = s.sec) ∧
    (MayWrite s ag 0x5C0900 1 → waitLeft s = 0 →
      ∃ t, exec (.chal ag) s = .next t ∧ Accepted t ∧ Elsewhere { s with sec := t.sec } t noReg ∧
        t.sec = { s.sec with chal := none, chalReq := true, spent := false, phase := if s.sec.phase = 1 then 0 else s.sec.phase }) ∧
    (s.sec.chalReq = true → s.sec.phase ≠ 2 → exec .challengeReady s = .next { s with
      fresh := s.fresh + 1, sec := { s.sec with chalReq := false, chal := some (Config.challenge s.fresh, now s 0), phase := 1 } }) ∧
    (∀ c a, s.sec.chal = some (c, a) → atOrAfter (now s 0) (a + 60000000000) = true → exec .challengeExpired s =
      .next { s with sec := { s.sec with chal := none, spent := true, phase := if s.sec.phase = 1 then 0 else s.sec.phase } }) ∧
    (∀ v, MayWrite s ag 0x5C0AFC v → s.sec.phase ≠ 2 →
      ∃ t, exec (.unlockSubmit ag v) s = .next t ∧ Accepted t ∧ Elsewhere { s with sec := t.sec } t noReg ∧
        t.sec = { s.sec with msg := sput 0 s.sec.msg 63 v, used := s.sec.chal, chal := none, spent := s.sec.spent || s.sec.chal.isSome, phase := 2 }) ∧
    (s.sec.phase = 2 → ∃ t, exec .unlockVerifyComplete s = .next t ∧ t.mem = s.mem ∧ t.sec.used = none ∧
      (unlockRes s = 0 → t.sec.phase = 3 ∧ t.sec.res = 0 ∧ t.sec.fails = 0 ∧ t.sec.waitTo = none ∧ t.sec.active = true ∧
        t.sec.parcel = BitVec.ofNat 4 ((msgBytes s).getD 4 0).toNat ∧ t.sec.scope = BitVec.ofNat 3 ((msgBytes s).getD 5 0).toNat ∧
        t.sec.until_ = now s 0 + BitVec.ofNat 64 (leVal (((msgBytes s).drop 6).take 2) * 60000000000)) ∧
      (unlockRes s ≠ 0 → t.sec.phase = 4 ∧ t.sec.res.toNat = unlockRes s ∧ t.sec.fails.toNat = min (s.sec.fails.toNat + 1) 255 ∧
        t.sec.waitTo = some (now s 0 + BitVec.ofNat 64 (min 255 (2 ^ (min (s.sec.fails.toNat + 1) 255 - 1)) * 1000000000)) ∧
        t.sec.active = s.sec.active ∧ t = { s with sec := t.sec })) ∧
    (s.sec.active = true →
      let ended (t : State) : Prop := t.sec.active = false ∧ t.sec.parcel = s.sec.parcel ∧ t.mem = s.mem ∧
        ∀ c, c < 256 → (fnOfCtx s c).isSome = true → ctxParcel s c = s.sec.parcel.toNat → (getCtx t c).st ≠ .halted
      (MayWrite s ag 0x5C0900 2 → ∃ t, exec (.relock ag) s = .next t ∧ Accepted t ∧ ended t) ∧
      (atOrAfter (now s 0) s.sec.until_ = true → ∃ t, exec .unlockLifeExpired s = .next t ∧ ended t)) ∧
    (waitLeft s = 0 → exec .unlockWaitElapsed s = .next { s with sec := { s.sec with waitTo := none } })

/-- 04 R131 to R133, R175 to R177: a seal request that passes its checks asks the key port to advance the counter; the acknowledge of the
advance is followed by a read-back, whose value goes to SEC_ARC; a failure or a late answer ends it; its completion shows RES and extends
the measurements. -/
def Obligations.SealsAdvanceTheirCounter : Prop :=
  (∀ (s : State) (ag : Agent) (v : Word),
    let g := fld v 16 5
    let e := fld v 0 16
    let a := agentAcc s ag 0x5C0280 v
    MayWrite s ag 0x5C0280 v → (g = 16 → allows s a 0 0 rKHD true = true) → (g ≠ 16 → g < 16 ∧ allows s a 0 g rSHD true = true) →
    s.sec.sealing = none →
    ∃ t, exec (.sealRequest ag v) s = .next t ∧ Accepted t ∧ rg t 0x5C0284 = fields [(16, 5, g), (0, 4, sealRefusal s g e)] ∧
      Elsewhere { s with sec := t.sec } t (· = 0x5C0284) ∧
      t.sec = if sealRefusal s g e = 0 then
          { s.sec with sealing := some { target := g, epoch := BitVec.ofNat 16 e, readBack := false, done := none },
                       kp := some { op := 3, idx := BitVec.ofNat 5 g, wd := BitVec.ofNat 16 e, at_ := now s 0 } }
        else s.sec) ∧
  (∀ (s : State) (k : KpReq) (q : Seal) (rd : Word), s.sec.kp = some k → s.sec.sealing = some q →
    exec (.keyPortAcknowledge rd true) s = .next { s with sec := { s.sec with kp := none, sealing := some { q with done := some false } } } ∧
    (kpLate s k = true → exec (.keyPortAcknowledge rd false) s =
      .next { s with sec := { s.sec with kp := none, sealing := some { q with done := some false } } }) ∧
    (k.op = 3 → kpLate s k = false → exec (.keyPortAcknowledge rd false) s = .next { s with sec := { s.sec with
      kp := some { op := 2, idx := k.idx, wd := 0, at_ := now s 0 }, sealing := some { q with readBack := true } } }) ∧
    (k.op ≠ 3 → kpLate s k = false → ∃ t, exec (.keyPortAcknowledge rd false) s = .next t ∧ rg t (arcA q.target) = rd &&& 0xFFFF ∧
      t = { s with regs := t.regs, sec := { s.sec with kp := none, sealing := some { q with
        done := some (decide (rd &&& 0xFFFF = q.epoch.setWidth 32)) } } } ∧ ∀ a, a ≠ arcA q.target → rg t a = rg s a) ∧
    (atOrAfter (now s 0) (k.at_ + if k.op = 3 then 100000000 else 10000) = true →
      exec .keyPortTimeout s = .next { s with sec := { s.sec with kp := none, sealing := some { q with done := some false } } })) ∧
  (∀ (s : State) (q : Seal) (ok : Bool), s.sec.sealing = some q → q.done = some ok → q.target < 16 →
    ∃ t, exec .sealComplete s = .next t ∧ t.sec.sealing = none ∧ fld (rg t 0x5C0284) 0 4 = (if ok then 0 else 4) ∧ t.mem = s.mem ∧
      rg t 0x5C0830 = rg s 0x5C0830 + (if ok then 1 else 0) ∧
      rg t (0x5C0430 + q.target * 0x40) = rg s (0x5C0430 + q.target * 0x40) + (if ok then 1 else 0))

/-- 09 R356, R361, R362, R364; 14 R501, R510, R513: kicks, configuration and expiry of a watchdog, and the clearing of exception records,
fault records, UNACK and lost blocks. -/
def Obligations.WatchdogsExpireAndRecordsClear : Prop :=
  (∀ (s : State) (ag : Agent) (p : Nat), p < 16 →
    (MayWrite s ag (wda p 0) 0x80000000 → ∃ t, exec (.kick ag p) s = .next t ∧ Accepted t ∧ Elsewhere { s with sec := t.sec } t noReg ∧
      t.sec = if wdCounts s p then { s.sec with wdStart := sput 0 s.sec.wdStart p (now s 0) } else s.sec) ∧
    (∀ v, MayWrite s ag (wda p 0) (v &&& 0x7FFFFFFF) → ∃ t, exec (.watchdogConfigWrite ag p v) s = .next t ∧ Accepted t ∧
      (if bit (rg s (wda p 0)) 30 then Elsewhere s t noReg
       else rg t (wda p 0) = v &&& 0x70FFFFFF ∧ Elsewhere { s with sec := t.sec } t (· = wda p 0) ∧
         t.sec = { s.sec with wdStart := sput 0 s.sec.wdStart p (now s 0) })) ∧
    (wdOn s p = true → wdCounts s p = true →
      atOrAfter (now s 0) (sget 0 s.sec.wdStart p + BitVec.ofNat 64 (wdWindow s p)) = true →
      ∃ t, exec (.watchdogExpired p) s = .next t ∧ bit (rg t (wda p 4)) 0 = true ∧ t.mem = s.mem ∧ t.ctxs = s.ctxs ∧
        t.sec = { s.sec with wdStart := sput 0 s.sec.wdStart p (now s 0) } ∧
        (powered s 0 domBUF = true → (getSrc t (0x3E0 + p)).pend = true) ∧
        ∀ f, f < nFn s → (getFn t f).st =
          if bit (rg s (wda p 0)) 29 = true ∧ fnParcel s f = p ∧ (getFn s f).st = .running then .draining else (getFn s f).st)) ∧
  (∀ (s : State) (ag : Agent) (u p : Nat), p < 16 →
    (let a := ta u (0x500800 + 16 * p)
     MayWrite s ag a 0x80000000 → bit (rg s a) 31 = true → ∃ t, exec (.exceptionRecordClear ag u p) s = .next t ∧ Accepted t ∧
      bit (rg t a) 31 = false ∧ fld (rg t a) 20 8 = 0 ∧ Elsewhere s t (· = a)) ∧
    (let a := ta u (0x580400 + 16 * p)
     MayWrite s ag a 0x80000000 → bit (rg s a) 31 = true → ∃ t, exec (.faultRecordClear ag u p) s = .next t ∧ Accepted t ∧
      bit (rg t a) 31 = false ∧ fld (rg t (a + 4)) 8 8 = 0 ∧ Elsewhere s t (fun k => k = a ∨ k = a + 4)) ∧
    (let a := ta u 0x580000
     MayWrite s ag a 0x8000 → ∃ t, exec (.unack ag u) s = .next t ∧ Accepted t ∧ rg t a = rg s a &&& ~~~0x8000#32 ∧ Elsewhere s t (· = a)) ∧
    (∀ v, let a := ta u 0x58000C
     let g := (granTag s u (fld v 6 16 / 4)).1
     MayWrite s ag a v → allows s (agentAcc s ag a v) u g { rSHD with k := g == 0 } true = true →
      ∃ t, exec (.lostBlockClear ag u v) s = .next t ∧ Accepted t ∧ Elsewhere { s with tiles := t.tiles } t noReg ∧
        ∀ k, isLost t k = (isLost s k && !(decide (k / 0x1000000 = u) && decide (blockOf k = fld v 6 16)))))

/-! ## Frame ports and fly-through pairs -/

/-- 11 R399, R402 to R407, R422: a frame that passes the tests is admitted to its flow when it starts and stored with its record when it
ends; one in error is only counted; CONS frees records; the PHY's reports move the link, and a link that falls empties the queues. -/
def Obligations.ReceivedFramesAreStoredInTheirFlow : Prop :=
  ∀ (s : State) (p : Nat),
    (∀ bytes, portOn s p = true → (getPort s p).up = true → (getPort s p).rx = none → pairOn s p = false → isControl bytes = false →
      isRunning s (fnOfPort s p) = true →
      let e := (eventTime s (p / 8)).2
      let frame (flow : Option (Nat × Nat × Nat)) (drop : Option Nat) : RxFrame :=
        { bytes, at_ := now s (p / 8), ns := eventNs e - (pr s p 0x2C &&& 0xFFFF).setWidth 64, frac := BitVec.ofNat 16 e, flow, drop }
      let goes (flow : Option (Nat × Nat × Nat)) (drop : Option Nat) : Prop :=
        ∃ t, exec (.frameReceiveStart p bytes) s = .next t ∧ t = { s with ports := t.ports, fresh := s.fresh + 1 } ∧
          getPort t p = { getPort s p with rx := some (frame flow drop) } ∧ ∀ q, q ≠ p → getPort t q = getPort s q
      (addrOk s p bytes = false → goes none (some 19)) ∧
      (addrOk s p bytes = true → flowFor s p bytes = none → goes none (some 20)) ∧
      (∀ f, addrOk s p bytes = true → flowFor s p bytes = some f → fld (pr s p (flowOff f 0)) 16 12 = 0 →
        match ringRoom s p f with | some (g, skip) => goes (some (f, g, skip)) none | none => goes none (some 22)) ∧
      (∀ f, addrOk s p bytes = true → flowFor s p bytes = some f → fld (pr s p (flowOff f 0)) 16 12 ≠ 0 →
        (getFlow s (flowKey p f)).win = now s (p / 8) >>> 20 → fld (pr s p (flowOff f 0)) 16 12 ≤ (getFlow s (flowKey p f)).rl →
        ∃ t, exec (.frameReceiveStart p bytes) s = .next t ∧ t = { s with ports := t.ports, flows := t.flows, fresh := s.fresh + 1 } ∧
          getPort t p = { getPort s p with rx := some (frame none (some 21)) } ∧
          (getFlow t (flowKey p f)).rl = (getFlow s (flowKey p f)).rl + 1)) ∧
    (∀ r, (getPort s p).rx = some r → r.taken = false → r.jab = false → r.faulted = false →
      (r.bytes.length ≤ 4 * fld (pr s p 0x18) 0 14 → ∃ t, exec (.frameReceiveEnd p true) s = .next t ∧ (getPort t p).rx = none ∧ rg t (pa p 0x448) = rg s (pa p 0x448) + 1 ∧
        t.flows = s.flows) ∧
      (∀ f g skip, f < 8 → r.bytes.length ≤ fld (pr s p 0x18) 0 14 → 64 ≤ r.bytes.length → fcsOk r.bytes = true → isControl r.bytes = false →
        r.flow = some (f, g, skip) →
        let k := flowKey p f
        let x := getFlow s k
        let st := storedBytes s p r.bytes
        let off := (dFirst s p f + g) * 256
        let ro := recOff s p f x.prod.toNat
        let tagged := (frameTci r.bytes).isSome
        let rec8 := recBytes st.length f (tagged.toNat + 2 * (tagged && bit (pr s p 0x18) 22).toNat) ((frameTci r.bytes).getD 0)
          (frameType r.bytes) off x.seq r.ns r.frac (framePcp s p r.bytes) p
        isRunning s (fnOfPort s p) = true → storeOk s p off st.length ro = (s, true) → s.badBlk = [] →
        ∃ t, exec (.frameReceiveEnd p false) s = .next t ∧ (getPort t p).rx = none ∧ (getFlow t k).prod = x.prod + 1 ∧
          (getFlow t k).seq = x.seq + 1 ∧ (getFlow t k).cons = x.cons ∧
          (getFlow t k).recs = x.recs ++ [{ gran := g, count := (st.length + 255) / 256, skip }] ∧
          (∀ j, j ≠ k → getFlow t j = getFlow s j) ∧
          ∀ a, sget 0 t.mem (ta (p / 8) a) =
            if ro ≤ a ∧ a < ro + 32 then rec8.getD (a - ro) 0
            else if off ≤ a ∧ a < off + st.length then st.getD (a - off) 0 else sget 0 s.mem (ta (p / 8) a))) ∧
    (∀ r, (getPort s p).rx = some r → r.jab = false →
      atOrAfter (now s (p / 8)) (r.at_ + BitVec.ofNat 64 (4 * fld (pr s p 0x18) 0 14 * byteNs (getPort s p).speed + 1)) = true →
      ∃ t, exec (.jabber p) s = .next t ∧
      (getPort t p).rx = some { r with jab := true } ∧ bit (rg t (pa p 8)) 5 = true ∧ rg t (pa p 0x444) = rg s (pa p 0x444) + 1 ∧
      t.flows = s.flows ∧ t.mem = s.mem) ∧
    (∀ ag f v, f < 8 → MayWrite s ag (pa p (flowOff f 0x10)) v →
      let x := getFlow s (flowKey p f)
      let d := (v.setWidth 16 - x.cons).toNat
      ∃ t, exec (.flowConsume ag p f v) s = .next t ∧ Accepted t ∧
        (if d ≤ x.held then getFlow t (flowKey p f) = { x with cons := v.setWidth 16, recs := x.recs.drop d } ∧
            (∀ j, j ≠ flowKey p f → getFlow t j = getFlow s j) ∧ Elsewhere { s with flows := t.flows } t noReg
         else bit (rg t (pa p (flowOff f 0xC))) 31 = true ∧ Elsewhere s t (· = pa p (flowOff f 0xC)))) ∧
    (p < s.nTiles * 8 → fld (pr s p 0) 6 2 ≠ 0 →
      (∀ sp : BitVec 2, portOn s p = true → (speedsOf (fld (pr s p 0) 0 3)).testBit sp.toNat = true → (getPort s p).up = false →
        ∃ t, exec (.linkUp p sp) s = .next t ∧ getPort t p = { getPort s p with up := true, speed := sp, report := some sp } ∧
          (∀ q, q ≠ p → getPort t q = getPort s q) ∧ t.mem = s.mem) ∧
      (∀ cause : BitVec 2, (getPort s p).up = true → ∃ t, exec (.linkDown p cause) s = .next t ∧ (getPort t p).up = false ∧
        (getPort t p).report = none ∧ (getPort t p).rx = none ∧ (∀ q, q < 8 → (getTxQ t (txKey p q)).entries = []) ∧ t.mem = s.mem))

/-- 11 R411 to R421: a post joins its queue, or is turned away by a full one with its flag; a flush retires every entry; at a frame boundary
a due pause frame, else the head of the highest queue that may send, starts; its end retires it and counts; pauses end by time and by
their watchdog; rate windows restart. -/
def Obligations.TransmitQueuesSendInPriorityOrder : Prop :=
  ∀ (s : State) (p : Nat),
    (∀ ag v, MayWrite s ag (pa p 0x304) v → (getPort s p).up = true →
      let q := fld v 29 3
      let e := postEntry ((heldLo s (agentAcc s ag (pa p 0x304) v) (pa p 0x300)).getD 0) v
      ∃ t, exec (.transmitPost ag p v) s = .next t ∧ t.mem = s.mem ∧ (∀ k, k ≠ txKey p q → getTxQ t k = getTxQ s k) ∧
        (if (getTxQ s (txKey p q)).entries.length < 16
         then Accepted t ∧ getTxQ t (txKey p q) = { getTxQ s (txKey p q) with entries := (getTxQ s (txKey p q)).entries ++ [e] }
         else t.result.refused = true ∧ bit (rg t (pa p 8)) 3 = true ∧ getTxQ t (txKey p q) = getTxQ s (txKey p q))) ∧
    (∀ ag, MayWrite s ag (pa p 4) ((rg s (pa p 4) &&& 1) ||| 2) →
      ∃ t, exec (.flush ag p) s = .next t ∧ Accepted t ∧ t.mem = s.mem ∧ rg t (pa p 4) = rg s (pa p 4) &&& 1 ∧
        ∀ q, q < 8 → (getTxQ t (txKey p q)).entries = [] ∧
          (getTxQ t (txKey p q)).done = (getTxQ s (txKey p q)).done + BitVec.ofNat 16 (getTxQ s (txKey p q)).entries.length) ∧
    (portOn s p = true → (getPort s p).up = true → (getPort s p).tx = none → egressBusy s p = false →
      (ownDue s p = true → ∃ t x, exec (.transmitFrameStart p) s = .next t ∧ (getPort t p).tx = some x ∧ x.q = none ∧ t = { s with ports := t.ports }) ∧
      (∀ q e, ownDue s p = false → nextEntry s p = some (q, e) → lenOk s p e = true → granOk s p e = (s, true) → e.tsreq = false →
        s.badBlk = [] → anyLost s (ta (p / 8) e.addr.toNat) e.len = false →
        ∃ t, exec (.transmitFrameStart p) s = .next t ∧
          (getPort t p).tx = some { q := some q, ent := some e, bytes := entryBytes s p q e } ∧
          getTxQ t (txKey p q) = { getTxQ s (txKey p q) with entries := (getTxQ s (txKey p q)).entries.drop 1 } ∧
          (∀ k, k ≠ txKey p q → getTxQ t k = getTxQ s k) ∧ t.mem = s.mem)) ∧
    (∀ q e bs, (getPort s p).tx = some { q := some q, ent := some e, bytes := bs } →
      ∃ t, exec (.transmitFrameEnd p) s = .next t ∧ (getPort t p).tx = none ∧ (getPort t p).sent = bs ∧ (getPort t p).busyTo = now s (p / 8) ∧
        getTxQ t (txKey p q) = { getTxQ s (txKey p q) with done := (getTxQ s (txKey p q)).done + 1 } ∧
        rg t (pa p 0x468) = rg s (pa p 0x468) + 1 ∧ rg t (pa p 0x46C) = rg s (pa p 0x46C) + BitVec.ofNat 32 bs.length ∧ t.mem = s.mem) ∧
    (∀ q, paused s p q = false → ∃ t, exec (.pauseExpired p q) s = .next t ∧ t = { s with txqs := t.txqs } ∧
      getTxQ t (txKey p q) = { getTxQ s (txKey p q) with pausedTo := none, pausedAt := none } ∧ ∀ k, k ≠ txKey p q → getTxQ t k = getTxQ s k) ∧
    (∀ a, (getPort s p).refreshAt = some a → atOrAfter (now s (p / 8)) a = true →
      ∃ t, exec (.pauseRefreshDue p) s = .next t ∧ t = { s with ports := t.ports } ∧ getPort t p = { getPort s p with refreshAt := none } ∧
        ∀ q, q ≠ p → getPort t q = getPort s q) ∧
    (∀ q a, q < 8 → (getTxQ s (txKey p q)).pausedAt = some a → paused s p q = true →
      atOrAfter (now s (p / 8)) (a + BitVec.ofNat 64 (max 1 (fld (pr s p 0x24) 0 16) * 100000)) = true →
      ∃ t, exec (.pauseWatchdog p q) s = .next t ∧ (getTxQ t (txKey p q)).pausedTo = none ∧ bit (rg t (pa p 0x28)) (8 + q) = true ∧
        rg t (pa p 0x47C) = rg s (pa p 0x47C) + 1 ∧ (∀ k, k ≠ txKey p q → getTxQ t k = getTxQ s k) ∧ t.mem = s.mem) ∧
    (∀ u, u < s.nTiles → ∃ t, exec (.rateWindowEnd u) s = .next t ∧ t = { s with flows := t.flows } ∧
      ∀ k, getFlow t k = if k / 64 = u ∧ (getFlow s k).win ≠ now s u >>> 20 then { getFlow s k with rl := 0, win := now s u >>> 20 }
        else getFlow s k)

/-- 12 R437, R438, R441, R444, R446, R447, R451, R452: with one frame in the pair's window, the next chunk is complete, and the last one of a
frame cut at MAXLEN ends it; a chunk is released at its time and not before, with its replacement where one was accepted; one of an owed
frame that is released unread, or of an abandoned one, makes the frame late; the last release counts the frame; it starts on the egress port
4 x b + δ after chunk 0. -/
def Obligations.ChunksMoveThroughTheWindow : Prop :=
  ∀ (s : State) (k : Nat) (f : PairFrame), (getPair s k).frames = [f] → f.counted = false →
    let lt := rg s (ka k 4)
    let n := now s (k / 8)
    let only (t : State) : Prop := (∀ j, j ≠ k → getPair t j = getPair s j) ∧ t.mem = s.mem
    (f.ended = false → f.complete + 1 < f.chunks → ∃ t, exec (.chunkComplete k) s = .next t ∧ only t ∧
      (getPair t k).frames = [{ f with complete := f.complete + 1, doneAt := f.doneAt ++ [n] }]) ∧
    (f.ended = false → f.complete + 1 = f.chunks → f.released < f.chunks → f.cut = true → ∃ t, exec (.chunkComplete k) s = .next t ∧ only t ∧
      (getPair t k).frames = [{ f with complete := f.chunks, doneAt := f.doneAt ++ [n], ended := true, bad := true }]) ∧
    (f.released < f.complete → atOrAfter n (f.dueAt f.released) = false → exec (.chunkRelease k) s = .next s) ∧
    (f.released < f.complete → f.released + 1 < f.chunks → atOrAfter n (f.dueAt f.released) = true →
      ∃ t g, exec (.chunkRelease k) s = .next t ∧ only t ∧ (getPair t k).frames = [g] ∧ g.released = f.released + 1 ∧
        g.complete = f.complete ∧ t.ctxs = s.ctxs ∧
        (if f.owed && !f.control && (f.abandoned || (!f.closed && decide (f.next ≤ f.released))) then g.late = true ∧ g.lateCh = f.lateCh + 1
         else g = { f with out := f.out ++ f.fixed f.released (fld lt 0 14) ((lt >>> 24).setWidth 8), released := f.released + 1,
                           next := max f.next (f.released + 1), held := f.held && decide (f.released ≠ 0),
                           relAt := if f.released = 0 then n else f.relAt })) ∧
    (f.released < f.complete → f.released + 1 = f.chunks → f.ended = true → atOrAfter n (f.dueAt f.released) = true →
      ∃ t, exec (.chunkRelease k) s = .next t ∧ only t ∧ let a := ka k (if f.owed then 0x40 else 0x44); rg t a = rg s a + 1) ∧
    (f.fwd = true → f.started = false → 1 ≤ f.released →
      let at4 := atOrAfter n (f.relAt + BitVec.ofNat 64 (4 * f.bt + f.delta))
      (at4 = false → exec (.schussEgressStart k) s = .next s) ∧
      (at4 = true → f.released < f.chunks → ∃ t, exec (.schussEgressStart k) s = .next t ∧ (getPair t k).frames = [{ f with started := true }] ∧
        (∀ j, j ≠ k → getPair t j = getPair s j) ∧ t = { s with pairs := t.pairs }))


/-! ## Flits, links, faults -/

/-- 13 R469 to R482: what a flit of each sequenced type does when it arrives in order: a WRITE stores its bytes, a READ is answered with the
data, RDATA reaches the waiting context, a DOORBELL its source, a MAILBOX message its mailbox, a KICK its watchdog; MIRWR, MIRREQ and MIRDAT
write, fetch and restore a mirrored block; SYNC is answered or completes the exchange; CTRL carries the peers' live links. -/
def Obligations.FlitsInOrderTakeEffect : Prop :=
  ∀ (s : State) (t k : Nat) (fl : Flit), InOrder s t k fl →
    let a := accOf fl
    let addr := fl.addr.toNat
    let n := fl.len.toNat
    let src := fl.src.toNat
    let b := auxBlock fl
    (fl.typ = 1 → fl.kind = 0 → fl.aux.toNat = 2 ^ n - 1 → GoodBuffer s a t addr n true →
      ∃ u, exec (.writeFlit t k fl) s = .next u ∧ Taken u t k fl ∧
        ∀ x, sget 0 u.mem x = if addr ≤ x ∧ x < addr + n then BitVec.ofNat 8 (fl.payload.toNat / 256 ^ (x - addr)) else sget 0 s.mem x) ∧
    (fl.typ = 2 → GoodBuffer s a t addr n false → isLost s addr = false → ∀ j m, routeOf s t src = some (j, m) →
      ∃ u r, exec (.readFlit t k fl) s = .next u ∧ Taken u t k fl ∧ u.mem = s.mem ∧ r ∈ onLink u t j ∧ r.typ = 3 ∧ r.tag = fl.tag ∧
        r.dst = fl.src ∧ bit r.aux 0 = false ∧ r.payload = BitVec.ofNat 256 (memRead s addr n)) ∧
    (∀ c x m, fl.typ = 3 → c / 256 = t → (getCtx s c).wait = .remote x m fl.tag →
      ∃ u, exec (.rdataFlit t k fl) s = .next u ∧ Taken u t k fl ∧ u.mem = s.mem ∧ (getCtx u c).wait =
        .answered x m (if bit fl.aux 0 then none else some (BitVec.ofNat 64 (fl.payload.toNat % 2 ^ (8 * m)))) none) ∧
    (fl.typ = 4 → powered s t domBUF = true → doorbellOk s a t (fld fl.addr 0 10) = true →
      ∃ u, exec (.doorbellFlit t k fl) s = .next u ∧ Taken u t k fl ∧ u.mem = s.mem ∧ (getSrc u (t * 1024 + fld fl.addr 0 10)).pend = true) ∧
    (let m := t * 32 + fld fl.addr 0 5
     fl.typ = 5 → fl.more = false → powered s t domBUF = true → (fnOfMbx s m).isSome = true →
      allows s a t (ownerOf s (fnOfMbx s m)) rSWHD true = true → mbxRoom s m = true → ((getTile s t).inbox.find? fun e => e.1 == src) = none →
      ∃ u, exec (.mailboxFlit t k fl) s = .next u ∧ Taken u t k fl ∧ u.mem = s.mem ∧ (∀ j, j ≠ m → getMbx u j = getMbx s j) ∧
        (getMbx u m).msgs = (getMbx s m).msgs ++ [{ words := mailWords fl, stamp := a.ident, seq := (getMbx s m).seq }] ∧
        (getMbx u m).seq = (getMbx s m).seq + 1) ∧
    (fl.typ = 6 → t = 0 → ∃ u, exec (.kickFlit t k fl) s = .next u ∧ Taken u t k fl ∧ u.mem = s.mem ∧
      u.sec = if wdCounts s fl.parcel.toNat then { s.sec with wdStart := sput 0 s.sec.wdStart fl.parcel.toNat (now s 0) } else s.sec) ∧
    (∀ h, fl.typ = 7 → src = partner t → b < mirBlocks → auxHalf fl = 1 → ((getTile s t).half.find? fun e => e.1 == b * 2) = some (b * 2, h) →
      ∃ u, exec (.mirwrFlit t k fl) s = .next u ∧ Taken u t k fl ∧ u.mem = s.mem ∧ isBad u t (mirPos b) = false ∧
        getMirror u (mirKey src b) = { data := BitVec.ofNat 512 (h.toNat + fl.payload.toNat * 2 ^ 256), placed := true }) ∧
    (∀ j m, fl.typ = 8 → src = partner t → b < mirBlocks → bit fl.aux 2 = false → mirrorGood s src b = true → routeOf s t src = some (j, m) →
      ∃ u, exec (.mirreqFlit t k fl) s = .next u ∧ Taken u t k fl ∧ u.mem = s.mem ∧
        rg u (ta t 0x57000C) = bumpFld (rg s (ta t 0x57000C)) 12 12 1 ∧ ∀ h, h < 2 → ∃ r ∈ onLink u t j, r.typ = 9 ∧
          r.aux = BitVec.ofNat 32 (b * 256 + h) ∧ r.payload = BitVec.ofNat 256 ((getMirror s (mirKey src b)).data.toNat / 2 ^ (256 * h))) ∧
    (∀ h, fl.typ = 9 → src = partner t → b < 16384 → fl.aux = BitVec.ofNat 32 (b * 256 + 1) → ((getTile s t).resend.any fun r => r.1 == b) = true →
      ((getTile s t).half.find? fun e => e.1 == b * 2 + 1) = some (b * 2 + 1, h) →
      ∃ u, exec (.mirdatFlit t k fl) s = .next u ∧ Taken u t k fl ∧ u.mem = s.mem ∧ isBad u t (posOf b) = false ∧
        codeRead u (codeAddr t (b * 64)) 64 = h.toNat + fl.payload.toNat * 2 ^ 256 ∧ ((getTile u t).resend.any fun r => r.1 == b) = false) ∧
    (fl.typ = 10 → bit fl.aux 0 = false → peerOf s.nTiles t k = src → ∃ u r, exec (.syncFlit t k fl) s = .next u ∧ Taken u t k fl ∧ u.mem = s.mem ∧ r ∈ onLink u t k ∧
      r.typ = 10 ∧ r.dst = fl.src ∧ r.aux = 1 ∧ r.payload.toNat % 2 ^ 80 = fl.payload.toNat % 2 ^ 80) ∧
    (fl.typ = 10 → bit fl.aux 0 = true → t ≠ 0 → (getTile s t).sync.t1.isSome = true →
      ∃ u, exec (.syncFlit t k fl) s = .next u ∧ Taken u t k fl ∧ u.mem = s.mem ∧ (getTile u t).sync.t1 = none ∧
        (getTile u t).sync.last = now s t) ∧
    (fl.typ = 11 → ctlKind fl = ctlLinks → ∃ u, exec (.ctrlFlit t k fl) s = .next u ∧ Taken u t k fl ∧ u.mem = s.mem ∧ (getTile u t).peers =
      (getTile s t).peers.filter (· / 4 != src) ++ ((List.range 4).filter (bit fl.aux)).map (src * 4 + ·))

/-- 13 R457, R461, R464 to R466: acknowledgements free the replay buffer; a NAK repeats what it names; a flit that is bad or out of sequence
is answered by one NAK and not accepted; a malformed one is counted and discarded; a link that makes no progress, or loses training, is
declared failed and trains again; training ends in service at its width, or in the next attempt; a FAILED link retries in time or on
command. -/
def Obligations.LinksKeepTheirSequenceAndState : Prop :=
  ∀ (s : State) (t k : Nat), tileRuns s t = true → k < 4 →
    let i := t * 4 + k
    let l := getLink s i
    let last := if l.queue = [] then flitBytes { bareFlit s t k 0 with lack := l.expect + 1 } else l.sent
    let only (u : State) : Prop := u = { s with links := u.links } ∧ ∀ j, j ≠ i → getLink u j = getLink s j
    (linkLive s t k = true →
      (∀ fl : Flit, fl.typ = 0 → fl.ackv = true → l.queue = [] → ∃ u, exec (.idleFlit t k fl) s = .next u ∧ only u ∧
        (getLink u i).replay = l.replay.dropWhile (fun e => decide ((fl.lack - e.1.lseq - 1).toNat < 512)) ∧ (getLink u i).expect = l.expect) ∧
      (∀ fl : Flit, fl.typ = 0xC → l.queue = [] → (∀ e ∈ l.replay, e.2 < 8) → ∃ u, exec (.nakFlit t k fl) s = .next u ∧
        (getLink u i).replay = (l.replay.dropWhile (fun e => decide ((fl.lack - e.1.lseq - 1).toNat < 512))).map (fun e => (e.1, e.2 + 1)) ∧
        rg u (ta t (0x570108 + k * 0x40)) = bumpFld (rg s (ta t (0x570108 + k * 0x40))) 12 12 1 ∧ u.mem = s.mem) ∧
      (∀ fl : Flit, ∃ u, exec (.flitCrcError t k fl true) s = .next u ∧
        getLink u i = (if l.naked = true ∧ fl.lseq ≠ l.expect then l else { l with naked := true, sent := flitBytes (bareFlit s t k 0xC) }) ∧
        (∀ j, j ≠ i → getLink u j = getLink s j) ∧
        rg u (ta t (0x570108 + k * 0x40)) = bumpFld (rg s (ta t (0x570108 + k * 0x40))) 0 12 1 ∧ u = { s with links := u.links, regs := u.regs }) ∧
      (∀ fl : Flit, sequenced fl = true → fl.lseq ≠ l.expect → ∃ u, exec (.flitCrcError t k fl false) s = .next u ∧
        getLink u i = (if l.naked then l else { l with naked := true, sent := flitBytes (bareFlit s t k 0xC) }) ∧ only u) ∧
      (∀ fl : Flit, sequenced fl = true → fl.lseq = l.expect → fl.ackv = false → ∃ u, exec (.malformedFlit t k fl) s = .next u ∧
        getLink u i = { l with expect := l.expect + 1, naked := false, accepted := l.accepted + 1, sent := last } ∧
        rg u (ta t (0x570108 + k * 0x40)) = bumpFld (rg s (ta t (0x570108 + k * 0x40))) 24 8 1 ∧ u = { s with links := u.links, regs := u.regs }) ∧
      (l.replay ≠ [] → atOrAfter (now s t) (l.progress + 3000) = true → ∃ u, exec (.linkProgressTimeout t k) s = .next u ∧
        (getLink u i).st = .training ∧ (getLink u i).tryX8 = false ∧ (getLink u i).declared = true ∧ u.mem = s.mem) ∧
      (∃ u, exec (.linkTrainingLoss t k) s = .next u ∧
        (getLink u i).st = .training ∧ (getLink u i).tryX8 = false ∧ (getLink u i).declared = true ∧ u.mem = s.mem)) ∧
    (l.st = .training →
      (l.tryX8 = false → ∃ u, exec (.linkTrainingEnd t k .x16) s = .next u ∧ (getLink u i).st = .up ∧ (getLink u i).x8 = false ∧
        (getLink u i).served = true ∧ u.mem = s.mem) ∧
      (∀ hi, l.tryX8 = true → ∃ u, exec (.linkTrainingEnd t k (.x8 hi)) s = .next u ∧ (getLink u i).st = .degraded ∧ (getLink u i).x8 = true ∧
        (getLink u i).lanesHi = hi ∧ (getLink u i).served = true ∧ u.mem = s.mem) ∧
      (l.tryX8 = false → ∃ u, exec (.linkTrainingEnd t k .failed) s = .next u ∧ only u ∧ getLink u i = { l with tryX8 := true }) ∧
      (l.tryX8 = true → ∃ u, exec (.linkTrainingEnd t k .failed) s = .next u ∧ (getLink u i).st = .failed ∧ (getLink u i).failedAt = now s t ∧
        u.mem = s.mem) ∧
      (∃ u, exec (.linkTrainingEnd t k .wrongPeer) s = .next u ∧ (getLink u i).st = .down ∧ u.mem = s.mem)) ∧
    (l.st = .failed →
      (atOrAfter (now s t) (l.failedAt + 10000000) = true → ∃ u, exec (.linkRetryTimer t k) s = .next u ∧ (getLink u i).st = .training ∧
        (getLink u i).tryX8 = false ∧ u.mem = s.mem) ∧
      (∀ ag, MayWrite s ag (ta t (0x570104 + 0x40 * k)) 1 → ∃ u, exec (.retrain ag t k) s = .next u ∧ Accepted u ∧
        (getLink u i).st = .training ∧ (getLink u i).tryX8 = false ∧ u.mem = s.mem))

/-- 13 R471, R475, R477, R482; 14 R489 to R497, R500: an end-to-end gap refuses its source; an exchange begins with the parent, 4096 ns after
the one before, and its absence clears SYNC; a re-send without a route ends; a transfer whose repeat passes is only recorded; a fault in the
event controller sets the source pending; the scrub goes on, ends its pass, and loses a bad buffer block; a struck copy of an entry changes
nothing that the entry says. -/
def Obligations.FaultsAndTimeoutsHaveTheirOutcome : Prop :=
  ∀ (s : State) (t : Nat), tileRuns s t = true →
    (∀ src vc h rest, vc < 4 → (getEseq s t (src * 4 + vc)).held = h :: rest → atOrAfter (now s t) (h.2 + 3000) = true →
      ∃ u, exec (.eseqGapTimeout t src vc) s = .next u ∧ u.mem = s.mem ∧
        getEseq u t (src * 4 + vc) = { getEseq s t (src * 4 + vc) with held := [], bad := [], refused := true }) ∧
    (syncTimed s t = false → exec (.syncExchangeDue t) s = .next s) ∧
    (∀ m d k, t ≠ 0 → syncTimed s t = true → parentOf s t = some (m, d) → ((List.range 4).find? fun k => linkLive s t k && peerOf s.nTiles t k == m) = some k →
      ∃ u r, exec (.syncExchangeDue t) s = .next u ∧ u.mem = s.mem ∧ (getTile u t).sync.t1 = some (now s t) ∧ (getTile u t).sync.parent = m ∧ (getTile u t).sync.asked = some (now s t) ∧
        r ∈ onLink u t k ∧ r.typ = 10 ∧ r.dst = BitVec.ofNat 3 m ∧ r.payload = BitVec.ofNat 256 (syncTime s t)) ∧
    (t ≠ 0 → syncBit s t = true → atOrAfter (now s t) ((getTile s t).sync.last + 16384) = true →
      ∃ u, exec (.syncTimeout t) s = .next u ∧ u.mem = s.mem ∧ syncBit u t = false ∧ bit (rg u (ta t 0x570004)) 7 = true ∧
        (powered s t domBUF = true → (getSrc u (t * 1024 + 0x3CC)).pend = true)) ∧
    (partnerRoute s t = false → ∃ u, exec (.mirrorRequestTimeout t) s = .next u ∧ u.mem = s.mem ∧
      ∀ r ∈ (getTile u t).resend, r ∈ (getTile s t).resend ∧ atOrAfter (now s t) (r.2 + 3000) = false) ∧
    (∀ x, siteThere s t x = true → ∃ u, exec (.dualRailCodeError t x (some true)) s = .next u ∧ Elsewhere s u isFlt ∧
      rg u (ta t (0x580100 + fld (rg s (ta t 0x580014)) 0 4 * 16) + 4) = (siteRec s t x 0x01 0 false).w1 ∧
      rg u (ta t 0x580010) = bumpFld (rg s (ta t 0x580010)) 16 8 1) ∧
    (∀ n second, srcExists t n = true →
      (∃ u, exec (.dualRailCodeError t (.events n second) none) s = .next u ∧ (getSrc u (t * 1024 + n)).pend = true ∧ u.mem = s.mem) ∧
      (∃ u, exec (.handshakeStall t (.events n true)) s = .next u ∧ (getSrc u (t * 1024 + n)).pend = true ∧ u.mem = s.mem)) ∧
    (let pos := (getTile s t).scrubPos
     powered s t domBUF = true →
      (isBad s t pos = false → pos + 1 < scrubLen → ∃ u, exec (.patrolScrubRead t ⟨true, []⟩) s = .next u ∧ u = { s with tiles := u.tiles } ∧
        getTile u t = { getTile s t with scrubPos := pos + 1 } ∧ ∀ j, j ≠ t → getTile u j = getTile s j) ∧
      (∀ m n, isBad s t pos = false → pos + 1 < scrubLen → ∃ u, exec (.patrolScrubRead t ⟨true, [.message m n]⟩) s = .next u ∧
        (∀ j, j ≠ t * 32 + m → getMbx u j = getMbx s j) ∧ u = { s with tiles := u.tiles, mbxs := u.mbxs } ∧
        getMbx u (t * 32 + m) = { getMbx s (t * 32 + m) with
          msgs := (getMbx s (t * 32 + m)).msgs.mapIdx fun j x => if j = n then { x with bad := true } else x }) ∧
      (isBad s t pos = false → pos + 1 = scrubLen → ∃ u, exec (.patrolScrubRead t ⟨true, []⟩) s = .next u ∧ (getTile u t).scrubPos = 0 ∧
        (getTile u t).scrubStart = now s t ∧ fld (rg u (ta t 0x580008)) 16 16 = (fld (rg s (ta t 0x580008)) 16 16 + 1) % 65536 ∧
        u.mem = s.mem) ∧
      (pos < 65536 → (∀ p, portOn s p = false) → isLost s (ta t (pos * 64)) = false →
        (∃ i, i < 32 ∧ sget none (getTile s t).lost i = none) →
        ∃ u, exec (.patrolScrubRead t ⟨false, []⟩) s = .next u ∧ isLost u (ta t (pos * 64)) = true ∧ (getTile u t).scrubPos = pos + 1 ∧
          ∀ a, sget 0 u.mem a = if ta t (pos * 64) ≤ a ∧ a < ta t (pos * 64) + 64 then 0 else sget 0 s.mem a))

/-! ## Sequencers, timers, PWM pairs -/

/-- 16 R554 to R565, 18 R622: a start arms a STOPPED sequencer of a RUNNING function at the loop's first word and drives its out pins idle, a stop
stops it; the FIFOs take a push and give a pop, or set their error bit; the flushes empty one FIFO; program and loop words are written only
while it is STOPPED and only with what R554 and R558 allow; a stall beyond the limit stops it; a boundary takes a FILL's word, or shifts one step in from the pins; a freeze stops the
unlocked parcel's sequencers and its end starts them. -/
def Obligations.SequencersKeepTheirProgramAndFifos : Prop :=
  ∀ (s : State) (ag : Agent) (n : Nat), n < 256 →
    let x := getSeq s n
    let cfg := qr s n 0
    let halted : Seq := { x with st := .stopped, bc := 0, ticks := 0, sawIn := false, due := none, hold := .none, base := 0, bounds := 0 }
    let holds (t : State) (y : Seq) : Prop := { getSeq t n with txAt := y.txAt, rxAt := y.rxAt } = y
    let only (t : State) : Prop := (∀ k, k ≠ n → getSeq t k = getSeq s k) ∧ t.mem = s.mem
    (MayWrite s ag (qa n 0x20) 1 → ∃ t, exec (.sequencerStart ag n) s = .next t ∧ Accepted t ∧ only t ∧
      (if x.st = .stopped ∧ isRunning s (fnOfSeq s n) = true then
        holds t { halted with st := .armed, pc := BitVec.ofNat 5 (fld (qr s n 0x14) 0 5), base := seqBase s n } ∧
        (bit cfg 24 = true → ∀ i, i < pwOf cfg → bit (getTile t (n / 32)).gpOut ((fld (qr s n 4) 22 6 + i) % 64) = bit cfg 25 ∧
          bit (getTile t (n / 32)).gpOe ((fld (qr s n 4) 22 6 + i) % 64) = true)
       else holds t x)) ∧
    (MayWrite s ag (qa n 0x20) 0 → ∃ t, exec (.sequencerStop ag n) s = .next t ∧ Accepted t ∧ only t ∧ holds t halted ∧
      Elsewhere { s with seqs := t.seqs } t noReg) ∧
    (MayWrite s ag (qa n 0x20) (seqCtlWith s n 1) → ∃ t, exec (.flushtx ag n) s = .next t ∧ Accepted t ∧ only t ∧ (getSeq t n).tx = [] ∧
      (getSeq t n).rx = x.rx ∧ (getSeq t n).st = x.st ∧ (getSeq t n).sr = x.sr ∧ Elsewhere { s with seqs := t.seqs } t noReg) ∧
    (MayWrite s ag (qa n 0x20) (seqCtlWith s n 2) → ∃ t, exec (.flushrx ag n) s = .next t ∧ Accepted t ∧ only t ∧ (getSeq t n).rx = [] ∧
      (getSeq t n).tx = x.tx ∧ (getSeq t n).st = x.st ∧ (getSeq t n).sr = x.sr ∧ Elsewhere { s with seqs := t.seqs } t noReg) ∧
    (∀ v, MayWrite s ag (qa n 0x28) v → ∃ t, exec (.sequencerPush ag n v) s = .next t ∧ Accepted t ∧ only t ∧
      Elsewhere { s with seqs := t.seqs } t (· = qa n 0x24) ∧
      (if x.tx.length < 8 then holds t { x with tx := x.tx ++ [v] } else getSeq t n = x ∧ bit (qr t n 0x24) 4 = true)) ∧
    (MayRead s ag (qa n 0x2C) → (agentAcc s ag (qa n 0x2C) 0).effect = true → ∃ t, exec (.sequencerPop ag n) s = .next t ∧ Accepted t ∧ only t ∧
      Elsewhere { s with seqs := t.seqs } t (· = qa n 0x24) ∧ t.result.data = (x.rx.headD 0).setWidth 64 ∧
      holds t { x with rx := x.rx.tail } ∧ (x.rx = [] → bit (qr t n 0x24) 5 = true)) ∧
    (∀ (off : BitVec 8) v, progReg off = true → off ≠ 0x34 → off ≠ 0x38 → MayWrite s ag (qa n off.toNat) v →
      ∃ t, exec (.sequencerProgramWrite ag n off v) s = .next t ∧ Accepted t ∧ t.seqs = s.seqs ∧
        Elsewhere s t (fun a => a = qa n off.toNat ∨ a = qa n 0x24) ∧
        (if x.st = .stopped ∧ (if off = 0x14 then decide (fld v 0 5 ≤ fld v 8 5) else progOk (v &&& 0xFFFFFF)) = true then
          (if off = 0x14 then fld (qr t n 0x14) 0 5 = fld v 0 5 ∧ fld (qr t n 0x14) 8 5 = fld v 8 5 else fld (qr t n off.toNat) 0 24 = fld v 0 24)
         else qr t n off.toNat = qr s n off.toNat ∧ bit (qr t n 0x24) 6 = true)) ∧
    (x.st ≠ .stopped → fld (qr s n 8) 24 8 ≠ 0 → 1 ≤ untilOf (curWord s n) → untilOf (curWord s n) ≤ 4 → fld (qr s n 8) 24 8 * 256 ≤ x.ticks →
      ∃ t, exec (.sequencerStallLimit n) s = .next t ∧ getSeq t n = halted ∧ bit (qr t n 0x24) 8 = true ∧ only t ∧
        Elsewhere { s with seqs := t.seqs } t (· = qa n 0x24)) ∧
    (∀ pins : BitVec 64, boundaryDue s n = false → exec (.sequencerBoundary n pins) s = .next s) ∧
    (∀ pins : BitVec 64, x.st ≠ .stopped → powered s (n / 32) domPIN = true → boundaryDue s n = true → x.hold = .none → untilOf (curWord s n) = 0 →
      let w := wOf cfg
      let pw := pwOf cfg
      let p := qr s n 4
      let ins := (ofBits 32 ((List.range pw).filter fun i => decide (i < fld p 28 4) && bit pins ((fld p 16 6 + i) % 64))).toNat
      let sr := x.sr.toNat % 2 ^ w
      ∃ t, exec (.sequencerBoundary n pins) s = .next t ∧ only t ∧ (getTile t (n / 32)).gpIn = pins ∧ (getSeq t n).bounds = x.bounds + 1 ∧
        (∀ d rest, x.due = none → x.ticks = 0 → actOf (curWord s n) = 6 → cntOf (curWord s n) ≠ 0 → x.tx = d :: rest →
          (getSeq t n).sr = d &&& msk 0 w ∧ (getSeq t n).tx = rest ∧ (getSeq t n).ticks = 1 ∧ (getSeq t n).pc = x.pc) ∧
        (x.due = none → x.ticks = 0 → actOf (curWord s n) = 6 → x.tx = [] → holds t { x with st := .stalled, bounds := x.bounds + 1 }) ∧
        (∀ oe, x.due = some (oe, true, false) → actOf (curWord s n) = 3 → x.bc + pw < w →
          (getSeq t n).sr = BitVec.ofNat 32 (if bit cfg 26 then (sr * 2 ^ pw + ins) % 2 ^ w else sr / 2 ^ pw + ins * 2 ^ (w - pw)) ∧
          (getSeq t n).due = some (true, true, false) ∧ (getSeq t n).bc = x.bc + pw ∧ (bit cfg 24 = true → ∀ i, i < pw →
            bit (getTile t (n / 32)).gpOut ((fld p 22 6 + i) % 64) = bit (getSeq t n).sr ((if bit cfg 26 then w - pw else 0) + i)))) ∧
    (∀ v p sc, MayWrite s ag (ta (n / 32) 0x5B0040) v → unlockAt s (n / 32) = some (p, sc) → (fnOfSeq s n).isSome = true →
      ownerOf s (fnOfSeq s n) = p →
      ∃ t, exec (.sequencerFreeze ag (n / 32) v) s = .next t ∧ Accepted t ∧ t.mem = s.mem ∧ (∀ k, k / 32 ≠ n / 32 → getSeq t k = getSeq s k) ∧
        (bit v (n % 32) = true → getSeq t n = if x.st = .stopped then x else { halted with frozen := true }) ∧
        (bit v (n % 32) = false → bit (rg s (ta (n / 32) 0x5B0044)) (n % 32) = false → x.frozen = true → x.st = .stopped →
          isRunning s (fnOfSeq s n) = true → (getSeq t n).st = .armed ∧ (getSeq t n).frozen = false))

/-- 17 R574 to R580: a compare write arms the channel at the distance to its value, with LATE at the ends of the range; through CMPI a value
equal to the count matches at once; a match sets MATCH and re-arms by the period or disarms; edges make a pulse or a period; a snapshot hands
over the held pair; a blanking window that has run out ends. -/
def Obligations.TimersCompareAndCapture : Prop :=
  ∀ (s : State) (ag : Agent) (n : Nat), n < 128 →
    let x := getTmr s n
    let cfg := tr s n 0
    let c := tmrCount s n
    let add := (tr s n 0x18).toNat
    let only (t : State) (ch : Nat → Prop) : Prop := (∀ k, k ≠ n → getTmr t k = getTmr s k) ∧ Elsewhere { s with tmrs := t.tmrs } t ch
    let raised (t : State) (lo : Nat) : Prop := let f := fld (tr s n 4) lo 10
      srcExists (n / 16) f = true → powered s (n / 16) domBUF = true → (getSrc t (n / 16 * 1024 + f)).pend = true
    (∀ v, MayWrite s ag (tma n 0x10) v →
      let d := (v - c.setWidth 32).toNat
      ∃ t, exec (.timerCompareWrite ag n v) s = .next t ∧ Accepted t ∧ only t (fun a => a = tma n 0x10 ∨ a = tma n 0x1C) ∧ tr t n 0x10 = v ∧
        (cmpLive cfg = false → getTmr t n = x) ∧
        (cmpLive cfg = true → getTmr t n = { x with armed := true, base := c, dist := if d = 0 then 2 ^ 32 else d } ∧
          bit (tr t n 0x1C) 1 = (bit (tr s n 0x1C) 1 || decide (d = 0 ∨ d = 2 ^ 32 - 1)))) ∧
    (∀ v, MayWrite s ag (tma n 0x14) v →
      let d := (v - c.setWidth 32).toNat
      ∃ t, exec (.timerCompareWriteImmediate ag n v) s = .next t ∧ Accepted t ∧ only t (fun a => a = tma n 0x10 ∨ a = tma n 0x1C) ∧
        (cmpLive cfg = false → getTmr t n = x ∧ tr t n 0x10 = v) ∧
        (cmpLive cfg = true → d ≠ 0 → getTmr t n = { x with armed := true, base := c, dist := d } ∧ tr t n 0x10 = v ∧
          bit (tr t n 0x1C) 1 = (bit (tr s n 0x1C) 1 || decide (d = 2 ^ 32 - 1))) ∧
        (cmpLive cfg = true → d = 0 → bit (tr t n 0x1C) 0 = true ∧ bit (tr t n 0x1C) 1 = bit (tr s n 0x1C) 1 ∧ raised t 10 ∧ (getTmr t n).armed = decide (add ≠ 0) ∧
          tr t n 0x10 = v + BitVec.ofNat 32 add)) ∧
    (x.armed = true → x.dist ≤ (c - x.base).toNat →
      let k := ((c - x.base).toNat - x.dist) / add
      ∃ t, exec (.timerCompareMatch n) s = .next t ∧ only t (fun a => a = tma n 0x10 ∨ a = tma n 0x1C) ∧ bit (tr t n 0x1C) 0 = true ∧ raised t 10 ∧
        (add = 0 → getTmr t n = { x with armed := false } ∧ tr t n 0x10 = tr s n 0x10) ∧
        (add ≠ 0 → getTmr t n = { x with base := x.base + BitVec.ofNat 64 (x.dist + k * add), dist := add } ∧
          tr t n 0x10 = tr s n 0x10 + BitVec.ofNat 32 (add * (k + 1)) ∧ (k ≠ 0 → bit (tr t n 0x1C) 2 = true))) ∧
    (x.armed = false ∨ (c - x.base).toNat < x.dist → exec (.timerCompareMatch n) s = .next s) ∧
    (∀ rising, (fnOfTmr s n).isSome = true → let c := (capTime s n).2; ∃ t, exec (.captureEdge n rising) s = .next t ∧ only t noReg ∧
      (modeOf cfg = 1 → (rising != bit cfg 24) = true → getTmr t n = { x with opening := some c }) ∧
      (∀ o, modeOf cfg = 1 → (rising != bit cfg 24) = false → x.opening = some o → raised t 0 ∧
        getTmr t n = { x with opening := none, capr := o, capf := c, fresh := true, ovr := x.ovr || x.fresh }) ∧
      (modeOf cfg = 2 → bit (BitVec.ofNat 2 (fld cfg 22 2)) (if rising then 0 else 1) = true →
        if fld cfg 0 8 ≤ x.edges then raised t 0 ∧
          getTmr t n = { x with edges := 0, capr := c, capf := x.capr, fresh := true, ovr := x.ovr || x.fresh }
        else getTmr t n = { x with edges := x.edges + 1 })) ∧
    (MayRead s ag (tma n 0x20) → ∃ t, exec (.captureSnapshot ag n) s = .next t ∧ Accepted t ∧ only t noReg ∧
      t.result.data = BitVec.ofNat 64 (x.ovr.toNat * 2 + x.fresh.toNat) ∧
      getTmr t n = if (agentAcc s ag (tma n 0x20) 0).effect then
        { x with fresh := false, ovr := false, snapR := x.capr, snapF := x.capf, snapW := capWidth cfg x.capr x.capf } else x) ∧
    (exec (.blankingWindowEnd n) s = .next (if blankOn s n then s else setTmr s n { x with blank := none }))

/-- 17 R585 to R596: what a PWM pair does at its carrier's zero, top and compare, at the end of a dead time, at a trip by its input or by
FORCE and its clearing, at a commit, a start, a stop and a write of its period. -/
def Obligations.PwmPairsFollowCarrierAndTrips : Prop :=
  ∀ (s : State) (ag : Agent) (p : Nat), p < 64 →
    let x := getPwm s p
    let cfg := wr s p 0
    let only (t : State) (ch : Nat → Prop) : Prop :=
      (∀ k, k ≠ p → getPwm t k = getPwm s k) ∧ Elsewhere { s with pwms := t.pwms, tmrs := t.tmrs } t ch
    let loaded (y : Pwm) (per duty : Bool) : Prop :=
      y.per = (if per then BitVec.ofNat 16 (fld (wr s p 0x10) 0 16) else x.per) ∧
      y.duty = (if duty then BitVec.ofNat 16 (fld (wr s p 0x14) 16 16) else x.duty) ∧
      y.dfrac = (if duty then BitVec.ofNat 4 (fld (wr s p 0x14) 0 4) else x.dfrac)
    let off (y : Pwm) : Prop := y.oe = false ∧ y.aOn = false ∧ y.bOn = false ∧ y.due = none
    let tripped (t : State) : Prop := (getPwm t p).st = .tripped ∧ (getPwm t p).tripf = true ∧ off (getPwm t p) ∧
      ∀ n, blankCh s p = some n → (getTmr t n).blank = some (tmrCount s n)
    let cmd (b : Nat) : Word := pwmCtlWith s p b
    (x.st = .off → exec (.carrierZero p) s = .next s ∧ exec (.carrierTop p) s = .next s ∧ exec (.referenceChange p) s = .next s) ∧
    (x.st ≠ .off → ∃ t, exec (.carrierZero p) s = .next t ∧ only t (· = wa p 0x1C) ∧
      let y := getPwm t p
      loaded y (if bit cfg 22 then x.wPer else x.pend) (if bit cfg 22 then x.wDuty else x.pend) ∧ y.carrier = 0 ∧ y.up = true ∧
        y.eff = y.duty.toNat + (if y.duty ≠ 0 ∧ y.duty ≠ 0xFFFF ∧ 15 < x.acc.toNat + y.dfrac.toNat then 1 else 0) ∧
        y.r = decide (y.eff ≠ 0) ∧ (y.r ≠ x.r → if y.r then y.bOn = false else y.aOn = false)) ∧
    (x.st ≠ .off → ∃ t, exec (.carrierTop p) s = .next t ∧ only t noReg ∧ loaded (getPwm t p) false false ∧ (getPwm t p).carrier = x.per ∧
      (getPwm t p).up = false ∧ (getPwm t p).r = decide (x.per.toNat ≤ x.eff)) ∧
    (x.st ≠ .off → 0 < x.eff → x.eff < x.per.toNat → ∃ t, exec (.referenceChange p) s = .next t ∧ only t noReg ∧
      loaded (getPwm t p) false false ∧ (getPwm t p).carrier = BitVec.ofNat 16 x.eff ∧ (getPwm t p).r = !x.up ∧ (getPwm t p).eff = x.eff) ∧
    (∀ dt a, x.due = some a →
      let lo := fld (wr s p 4) 0 10
      let hi := fld (wr s p 4) 16 10
      let d := if bit cfg 17 then min (max dt lo) hi else lo
      ∃ t, exec (.deadTimeEnd p dt) s = .next t ∧ only t (fun r => r = wa p 0x28 ∨ r = wa p 0x1C) ∧
        getPwm t p = { x with due := none, aOn := a, bOn := !a } ∧ fld (wr t p 0x28) (if a then 0 else 16) 10 = d ∧
        (bit cfg 17 = true → d = hi → bit (wr t p 0x1C) 2 = true)) ∧
    (p < s.nTiles * 8 → (∃ t, exec (.trip p false) s = .next t ∧ getPwm t p = { x with lvl := false } ∧ only t noReg) ∧
      (∃ t, exec (.trip p true) s = .next t ∧ (getPwm t p).lvl = true ∧ only t noReg ∧ (x.st ≠ .off → tripped t) ∧
        (x.st = .off → getPwm t p = { x with lvl := true }))) ∧
    (MayWrite s ag (wa p 0x18) (cmd 3) → ∃ t, exec (.force ag p) s = .next t ∧ Accepted t ∧ only t noReg ∧ (x.st ≠ .off → tripped t) ∧
      (x.st = .off → (getPwm t p).st = .off)) ∧
    (MayWrite s ag (wa p 0x18) (cmd 2) → x.tripf = true → ∃ t, exec (.tripclr ag p) s = .next t ∧ Accepted t ∧ only t (· = wa p 0x1C) ∧
      (x.lvl = false → pwmBlank s p = false → (getPwm t p).tripf = false ∧ (getPwm t p).ftrip = false ∧
        (x.st = .tripped → (getPwm t p).st = .running ∧ (getPwm t p).rearm = true ∧ (getPwm t p).oe = x.oe) ∧
        (x.st = .off → (getPwm t p).st = .off)) ∧
      (x.lvl = true ∨ pwmBlank s p = true → (getPwm t p).tripf = true ∧ (getPwm t p).st = x.st ∧ bit (wr t p 0x1C) 3 = true)) ∧
    (MayWrite s ag (wa p 0x18) (cmd 1) → ∃ t, exec (.pwmCommit ag p) s = .next t ∧ Accepted t ∧ only t noReg ∧ (getPwm t p).st = x.st ∧
      loaded (getPwm t p) false false ∧ (getPwm t p).pend = (x.pend || !bit cfg 22)) ∧
    (MayWrite s ag (wa p 0x18) 1 → ∃ t, exec (.pwmStart ag p) s = .next t ∧ Accepted t ∧ only t noReg ∧
      let y := getPwm t p
      (¬(x.st = .off ∧ isRunning s (fnOfPwm s p) = true) → y = x) ∧
      (x.st = .off → isRunning s (fnOfPwm s p) = true → loaded y true true ∧ y.carrier = 0 ∧ y.up = true ∧ y.r = decide (y.eff ≠ 0) ∧
        (x.tripf = true → y.st = .tripped) ∧
        (x.tripf = false → y.st = .running ∧ y.oe = true ∧ y.aOn = false ∧ y.bOn = false ∧ y.due = some y.r))) ∧
    (MayWrite s ag (wa p 0x18) 0 → ∃ t, exec (.pwmStop ag p) s = .next t ∧ Accepted t ∧ only t noReg ∧ (getPwm t p).st = .off ∧
      off (getPwm t p) ∧ loaded (getPwm t p) false false) ∧
    (∀ v, MayWrite s ag (wa p 0x10) v → ∃ t, exec (.pwmPeriodWrite ag p v) s = .next t ∧ Accepted t ∧ only t (fun r => r = wa p 0x10 ∨ r = wa p 0x1C) ∧
      if fld v 0 16 ≤ 1 ∨ fld v 0 16 = 0xFFFF then wr t p 0x10 = wr s p 0x10 ∧ getPwm t p = x ∧ bit (wr t p 0x1C) 0 = true
      else wr t p 0x10 = v &&& 0xFFFF ∧ getPwm t p = { x with wPer := true })

/-! ## Debug and measurement -/

/-- 18 R600 to R609: the scan port's instruction and the identification that IDCODE shows, the value that DACC captures, a debug access of tile 0's buffer memory or carried to another
tile, OVERRUN while one is in flight, its completion, DSTAT, and Test-Logic-Reset, which also ends an unlock. -/
def Obligations.ScanPortRunsDebugAccesses : Prop :=
  ∀ (s : State),
    let g := s.dbg
    (∃ t, exec .tapReset s = .next t ∧ t.mem = s.mem ∧ t.sec.active = false ∧
      t.dbg = { g with ir := 1, idr := 0x1160854F, overrun := false, refused := false, status := 3, discard := g.discard || g.acc.isSome } ∧
      (s.sec.active = false → t = { s with dbg := t.dbg })) ∧
    (∀ code, exec (.irUpdate code) s = .next { s with dbg := { g with ir := code, idr := if code = 1 then 0x1160854F else 0 } }) ∧
    (let w := g.data.toNat * 2 ^ 36 + g.addr.toNat * 16 + if g.acc.isSome && !g.discard then 1 else g.status.toNat
     exec .daccCapture s = .next (if g.ir = 8 then { s with dbg := { g with dacc := BitVec.ofNat 68 w } } else s)) ∧
    (∀ addr v consume, g.ir ≠ 8 → exec (.debugRead addr consume) s = .next s ∧ exec (.debugWrite addr v) s = .next s) ∧
    (∀ addr v consume, g.ir = 8 → g.acc.isSome = true → exec (.debugRead addr consume) s = .next { s with dbg := { g with overrun := true } } ∧
      exec (.debugWrite addr v) s = .next { s with dbg := { g with overrun := true } }) ∧
    (∀ (addr : Word) (consume : Bool), g.ir = 8 → g.acc = none →
      let a := agentAcc s (.dbg consume) addr.toNat 0
      let q : DbgAcc := { addr, wr := false, consume, data := 0 }
      ∃ t, exec (.debugRead addr consume) s = .next t ∧ t.dbg.acc = some q ∧
        (GoodBuffer s a 0 addr.toNat 4 false → isLost s addr.toNat = false →
          t.dbg.tag = none ∧ t.dbg.ans = some (some (BitVec.ofNat 32 (memRead s addr.toNat 4))) ∧ t.mem = s.mem) ∧
        (addr.toNat < 0x1000000 → checkAcc s a addr.toNat 4 false ≠ 0 → t.dbg.tag = none ∧ t.dbg.ans = some none ∧ t.mem = s.mem) ∧
        (∀ j m, 0x1000000 ≤ addr.toNat → addr.toNat < 0x8000000 → addr.toNat / 0x1000000 < s.nTiles →
          routeOf s 0 (addr.toNat / 0x1000000) = some (j, m) →
          t.dbg.tag = some (getTile s 0).tag ∧ t.dbg.left = 1 ∧ t.dbg.ans = none ∧ t.mem = s.mem)) ∧
    (∀ (addr v : Word), g.ir = 8 → g.acc = none →
      let a := agentAcc s (.dbg false) addr.toNat v
      ∃ t, exec (.debugWrite addr v) s = .next t ∧ t.dbg.acc = some { addr, wr := true, consume := false, data := v } ∧
        (GoodBuffer s a 0 addr.toNat 4 true → t.dbg.tag = none ∧ t.dbg.ans = some (some 0) ∧ ∀ k, sget 0 t.mem k =
          if addr.toNat ≤ k ∧ k < addr.toNat + 4 then BitVec.ofNat 8 (v.toNat / 256 ^ (k - addr.toNat)) else sget 0 s.mem k)) ∧
    (∀ q r, g.acc = some q → g.ans = some r → g.tag = none →
      let idle : Dbg := { g with acc := none, ans := none, full := false, discard := false }
      exec .debugAccessComplete s = .next { s with dbg := if g.discard then idle else
        { idle with data := (if q.wr || g.full then 0 else r.getD 0), addr := q.addr, status := (if r.isNone || g.full then 2 else 0),
                    refused := g.refused || r.isNone || (g.full && isPost (q.addr.toNat % 0x1000000)) } }) ∧
    (∀ v, g.ir = 9 → exec (.dstatUpdate v) s =
      .next { s with dbg := { g with overrun := g.overrun && !bit v 1, refused := g.refused && !bit v 0 } })

/-- 18 R610 to R613: HALT stops an IDLE or PARKED context of the unlocked parcel at once and asks a running one to stop; RESUME and STEP let a
HALTED one go on, and set BADOP for another; a pending halt takes effect between instructions, with its cause in DBG_HSTAT. -/
def Obligations.DebuggerHaltsAndReleasesContexts : Prop :=
  ∀ (s : State) (ag : Agent) (c : Nat) (v : Word), c < 2048 →
    let t := c / 256
    let x := getCtx s c
    let stat := ta t 0x5B0008
    let mine (op : Nat) : Prop := MayWrite s ag (ta t 0x5B0004) (setFld v 30 2 op) ∧ bit v 28 = false ∧ fld v 0 8 = c % 256 ∧
      (fnOfCtx s c).isSome = true ∧ ∃ sc, unlockAt s t = some (ctxParcel s c, sc)
    let still : Ctx := { x with haltReq := .none, stepping := false, stepEv := false }
    let halted (y : Ctx) : Prop := y = { still with st := .halted, micro := none, got := [], rep := {}, slotHeld := false }
    let goesOn (u : State) (y : Ctx) : Prop := ∃ st, (st = .ready ∨ st = .active) ∧
      { getCtx u c with rep := x.rep, slotHeld := x.slotHeld } = { y with st, rep := x.rep, slotHeld := x.slotHeld }
    let bad (u : State) : Prop := bit (rg u stat) 30 = true ∧ u.ctxs = s.ctxs ∧ Elsewhere s u (· = stat)
    (mine 1 → ∃ u, exec (.halt ag t v) s = .next u ∧ Accepted u ∧ u.mem = s.mem ∧ (∀ d, d ≠ c → getCtx u d = getCtx s d) ∧
      (x.st = .idle ∨ x.st = .parked → halted (getCtx u c) ∧ bit (rg u stat) 31 = true ∧ fld (rg u stat) 24 3 = 0 ∧ fld (rg u stat) 0 8 = c % 256) ∧
      (x.st = .free ∨ x.st = .halted ∨ x.st = .locked → bad u) ∧
      (x.st = .ready ∨ x.st = .active ∨ x.st = .stalled → getCtx u c = { x with haltReq := if x.haltReq = .none then .request else x.haltReq })) ∧
    (MayWrite s ag (ta t 0x5B0004) (setFld v 30 2 1) → bit v 28 = true → ∀ p sc, unlockAt s t = some (p, sc) →
      ∃ u, exec (.halt ag t v) s = .next u ∧ Accepted u ∧ u.mem = s.mem ∧ (∀ d, d ∉ ctxsOf s t p → getCtx u d = getCtx s d) ∧
        ∀ d ∈ ctxsOf s t p, ((getCtx s d).st = .idle ∨ (getCtx s d).st = .parked → (getCtx u d).st = .halted) ∧
          ((getCtx s d).st = .ready ∨ (getCtx s d).st = .active ∨ (getCtx s d).st = .stalled → (getCtx u d).haltReq ≠ .none)) ∧
    (mine 2 → ∃ u, exec (.resume ag t v) s = .next u ∧ Accepted u ∧ (x.st ≠ .halted → bad u) ∧
      (x.st = .halted → x.resident = false → getCtx u c = { still with st := .parked, wait := .none } ∧ OthersKeep s u c ∧ u.mem = s.mem) ∧
      (x.st = .halted → x.resident = true → x.act = true → x.rel = [] → OthersKeep s u c ∧ u.mem = s.mem ∧
        goesOn u { still with wait := .none })) ∧
    (mine 3 → ∃ u, exec (.step ag t v) s = .next u ∧ Accepted u ∧ (x.st ≠ .halted → bad u) ∧
      (x.st = .halted → x.resident = true → x.act = true → x.rel = [] → OthersKeep s u c ∧ u.mem = s.mem ∧
        goesOn u { x with stepping := true, stepEv := bit v 29, haltReq := .none }) ∧
      (x.st = .halted → x.resident = false → x.act = false → u.ctxs = s.ctxs ∧ u.mem = s.mem ∧ bit (rg u stat) 31 = true ∧
        fld (rg u stat) 24 3 = 1)) ∧
    (x.haltReq ≠ .none → (x.st = .ready ∨ x.st = .active) → x.mid = false →
      ∃ u, exec (.haltTakesEffect c) s = .next u ∧ halted (getCtx u c) ∧ u.mem = s.mem ∧
        (x.haltReq = .request ∨ x.haltReq = .step → OthersKeep s u c ∧ bit (rg u stat) 31 = true ∧ fld (rg u stat) 0 8 = c % 256 ∧
          fld (rg u stat) 24 3 = if x.haltReq = .step then 1 else 0)) ∧
    (x.haltReq = .none → exec (.haltTakesEffect c) s = .next s)

/-- 18 R623, R626 to R628: a claim of a free counter or sampler makes it the reader's, empty and at its reset configuration, and returns 0;
its owner's release makes it free; a write sets a count whole; a snapshot copies the counts of one parcel at one instant, now or at the armed
time; removed samples leave the ring. -/
def Obligations.CountersAndSamplersHaveOneOwner : Prop :=
  ∀ (s : State) (ag : Agent) (t i e p : Nat), i < 144 → e < 16 → p < 16 → Canonical s →
    let snap := ta t (0x5A2000 + 16 * p)
    let taken (u : State) : Prop := (∀ k, k / 144 = t → claimOwner (getPmc s k).owner = p → (getPmc u k).snap = (getPmc u k).cnt) ∧
      (∀ k, ¬(k / 144 = t ∧ claimOwner (getPmc s k).owner = p) → (getPmc u k).snap = (getPmc s k).snap) ∧
      bit (rg u snap) 2 = true ∧ rg u (snap + 12) = now32 s t ∧ Elsewhere s u (fun a => a = snap ∨ a = snap + 12)
    (MayRead s ag (pmcA t i 0) →
      let a := agentAcc s ag (pmcA t i 0) 0
      ∃ u, exec (.counterClaim ag t i) s = .next u ∧ Accepted u ∧ u.mem = s.mem ∧
        ((getPmc s (pmcKey t i)).owner = none → u.result.data = 0 ∧ (mayClaim a = false → (getPmc u (pmcKey t i)).owner = none) ∧
          (mayClaim a = true → getPmc u (pmcKey t i) = { owner := some (BitVec.ofNat 4 a.parcel) } ∧
            rg u (pmcA t i 4) = 0x3FF ∧ rg u (pmcA t i 8) = 0x07FFFF00)) ∧
        (∀ q, (getPmc s (pmcKey t i)).owner = some q → (getPmc u (pmcKey t i)).owner = some q ∧
          u.result.data = if q.toNat = a.parcel then 0 else 1)) ∧
    (MayWrite s ag (pmcA t i 0) 1 → ∃ u, exec (.counterRelease ag t i) s = .next u ∧ Accepted u ∧ u.mem = s.mem ∧
      if (getPmc s (pmcKey t i)).owner = some (BitVec.ofNat 4 (agentAcc s ag (pmcA t i 0) 1).parcel)
      then getPmc u (pmcKey t i) = {} ∧ rg u (pmcA t i 4) = 0x3FF ∧ rg u (pmcA t i 8) = 0x07FFFF00
      else (getPmc u (pmcKey t i)).owner = (getPmc s (pmcKey t i)).owner) ∧
    (∀ v, MayWrite s ag (pmcA t i 0x10) v → ∃ u, exec (.counterWrite ag t i v) s = .next u ∧ Accepted u ∧ u.mem = s.mem ∧
      (getPmc u (pmcKey t i)).owner = (getPmc s (pmcKey t i)).owner ∧ (getPmc u (pmcKey t i)).cnt.toNat / 2 ^ 32 = fld v 0 16 ∧
      ∀ lo, heldLo s (agentAcc s ag (pmcA t i 0x10) v) (pmcA t i 0xC) = some lo → (getPmc u (pmcKey t i)).cnt.toNat % 2 ^ 32 = lo.toNat) ∧
    (MayWrite s ag snap ((rg s snap &&& 2) ||| 1) → ∃ u, exec (.snapshotNow ag t p) s = .next u ∧ Accepted u ∧ taken u ∧
      bit (rg u snap) 1 = bit (rg s snap) 1) ∧
    (MayWrite s ag snap 2 → ∃ u, exec (.snapshotArm ag t p) s = .next u ∧ Accepted u ∧ bit (rg u snap) 1 = true ∧ Elsewhere s u (· = snap) ∧
      (atOrAfter (now s t) (snapAt s t p) = true → bit (rg u snap) 3 = true) ∧
      (atOrAfter (now s t) (snapAt s t p) = false → bit (rg u snap) 3 = bit (rg s snap) 3)) ∧
    (bit (rg s snap) 1 = true → atOrAfter (now s t) (snapAt s t p) = true → ∃ u, exec (.snapshotDue t p) s = .next u ∧ taken u ∧
      bit (rg u snap) 1 = false) ∧
    (bit (rg s snap) 1 = false ∨ atOrAfter (now s t) (snapAt s t p) = false → exec (.snapshotDue t p) s = .next s) ∧
    (MayRead s ag (smpA t e 0) →
      let a := agentAcc s ag (smpA t e 0) 0
      ∃ u, exec (.samplerClaim ag t e) s = .next u ∧ Accepted u ∧ u.mem = s.mem ∧
        ((getSmp s (smpKey t e)).owner = none → u.result.data = 0 ∧ getSmp u (smpKey t e) =
          if mayClaim a then { owner := some (BitVec.ofNat 4 a.parcel) } else getSmp s (smpKey t e)) ∧
        (∀ q, (getSmp s (smpKey t e)).owner = some q → getSmp u (smpKey t e) = getSmp s (smpKey t e) ∧
          u.result.data = if q.toNat = a.parcel then 0 else 1)) ∧
    (MayWrite s ag (smpA t e 0) 1 → ∃ u, exec (.samplerRelease ag t e) s = .next u ∧ Accepted u ∧ u.mem = s.mem ∧ getSmp u (smpKey t e) =
      if (getSmp s (smpKey t e)).owner = some (BitVec.ofNat 4 (agentAcc s ag (smpA t e 0) 1).parcel) then {} else getSmp s (smpKey t e)) ∧
    (∀ n, n < 128 → MayWrite s ag (smpA t e 0xC) (fields [(8, 7, n)]) → ∃ u, exec (.sampleRemove ag t e n) s = .next u ∧ Accepted u ∧
      getSmp u (smpKey t e) = { getSmp s (smpKey t e) with count := (getSmp s (smpKey t e)).count - n } ∧ Elsewhere s u noReg)

/-! ## Power, reset, start -/

/-- 19 R633 to R644: a power-down command is refused with its reason or isolates its domains; a power-up requests them, or wakes another
tile's BUF from tile 0; acknowledges, their time limit and the ends of wakes move the domain states. -/
def Obligations.PowerCommandsMoveDomains : Prop :=
  ∀ (s : State) (ag : Agent) (t : Nat),
    let x := getTile s t
    let stat := ta t 0x590000
    let res (u : State) : Nat := fld (rg u stat) 28 4
    let latched : Prop := ∃ e ∈ s.srcs, e.1 / 1024 = t ∧ (e.2.edge = true ∨ e.2.lvlc = true)
    (∀ v, MayWrite s ag (ta t 0x590004) (setBit v 31 false) → x.pcmd = none →
      let d := fld v 0 4
      ∃ u, exec (.powerDown ag t v) s = .next u ∧ Accepted u ∧ u.mem = s.mem ∧
        (∀ r, downRefusal s t d (fld v 8 3) = some r → res u = r ∧ getTile u t = x ∧ Elsewhere s u (· = stat)) ∧
        (downRefusal s t d (fld v 8 3) = none → bit x.req d = false → res u = 0 ∧ getTile u t = x) ∧
        (downRefusal s t d (fld v 8 3) = none → bit x.req d = true → (getTile u t).pcmd = some { up := false, dom := d } ∧
          (∀ k, k < 10 → bit (getTile u t).req k = (bit x.req k && !(domsOf d).contains k)) ∧
          (2 ≤ d ∧ d ≤ 5 → ∀ i, i < 2048 → (getUWord u (uwKey t (d - 2) i)).w = 0) ∧
          (d = domPIN → (getTile u t).gpOut = 0 ∧ (getTile u t).gpOe = 0))) ∧
    (∀ v, MayWrite s ag (ta t 0x590004) (setBit v 31 true) → x.pcmd = none →
      let d := fld v 0 4
      let k := fld v 8 3
      ∃ u, exec (.powerUp ag t v) s = .next u ∧ Accepted u ∧ u.mem = s.mem ∧ (10 ≤ d → res u = 8 ∧ getTile u t = x) ∧
        (d < 10 → (k = 0 ∨ k = t) → bit x.req d = true → bit x.stale d = false → res u = 0 ∧ getTile u t = x) ∧
        (d < 10 → (k = 0 ∨ k = t) → bit x.req d = false ∨ bit x.stale d = true → (getTile u t).pcmd = some { up := true, dom := d } ∧
          ∀ j, j < 10 → bit (getTile u t).req j = (bit x.req j || (domsOf d).contains j)) ∧
        (t = 0 → d = domBUF → k ≠ 0 → k < s.nTiles → res u = 0 ∧ (getTile u k).wakeReq = true)) ∧
    (x.wakeReq = true → bit x.req domBUF = false → x.pcmd = none → exec (.remoteWakeRequest t) s =
      .next (setTile (setTile s t { x with wakeReq := false }) t
        { x with wakeReq := false, req := x.req ||| 0x302, pcmd := some { up := true, dom := domBUF } })) ∧
    (∀ d level, t < s.nTiles → s.kpTest = false → 0 < d → d < 10 → bit x.ack d ≠ level →
      ∃ u, exec (.powerAcknowledge t d level) s = .next u ∧ u.mem = s.mem ∧ bit (getTile u t).ack d = level ∧
        (level = true → bit x.req d = true → bit (getTile u t).stale d = true ∧ ∀ o lo, dgenField d = some (o, lo) →
          fld (rg u (ta t o)) lo 8 = (fld (rg s (ta t o)) lo 8 + 1) % 256) ∧
        (∀ c, ¬latched → level = false → bit x.req d = false → x.pcmd = some c → c.up = false → d ∈ domsOf c.dom →
          (∀ k ∈ domsOf c.dom, k ≠ d → bit x.ack k = false) → (getTile u t).pcmd = none ∧ res u = 0)) ∧
    (∀ d c, d < 10 → bit x.ack d ≠ bit x.req d → x.pcmd = some c → d ∈ domsOf c.dom → powered s t domBUF = true →
      ∃ u, exec (.powerAckTimeout t d) s = .next u ∧ res u = 7 ∧ bit (rg u stat) 26 = true ∧ bit (rg u (ta t 0x580000)) 15 = true ∧
        (¬latched → (getTile u t).pcmd = none) ∧ (∀ a, a ≠ stat → ¬isFlt a → rg u a = rg s a) ∧ u.mem = s.mem) ∧
    (∀ d ok, d < 10 → bit x.stale d = true → bit x.ack d = true → bit x.req d = true →
      ∃ u, exec (.wakeComplete t d ok) s = .next u ∧
        (2 ≤ d ∧ d ≤ 5 → reloadWaits s t (d - 2) = true → u = s) ∧
        (2 ≤ d ∧ d ≤ 5 → reloadWaits s t (d - 2) = false → ok = true → bit x.wakeBad (d - 2) = false → bit (getTile u t).stale d = false ∧
          bit (getTile u t).paceNew (d - 2) = true ∧ (∀ e, e / 4 = t * 4 + (d - 2) → getEng u e = {}) ∧ u.mem = s.mem) ∧
        (2 ≤ d ∧ d ≤ 5 → reloadWaits s t (d - 2) = false → (ok = false ∨ bit x.wakeBad (d - 2) = true) → bit (getTile u t).stale d = true ∧
          res u = 9 ∧ bit (rg u (ta t 0x580000)) 15 = true ∧ u.engs = s.engs ∧ u.mem = s.mem) ∧
        (d = domPIN → bit (getTile u t).stale d = false ∧ u.mem = s.mem ∧ ∀ n, n / 32 = t →
          (getSeq u n).st = .stopped ∧ (getSeq u n).sr = 0 ∧ (getSeq u n).tx = [] ∧ (getSeq u n).rx = []) ∧
        (d = domPORT → bit (getTile u t).stale d = false ∧ u.mem = s.mem ∧ ∀ p, p / 8 = t → (getPort u p).rx = none ∧
          ∀ q, q < 8 → (getTxQ u (txKey p q)).entries = []) ∧
        (d = domBUF → Canonical s → (∀ k ∈ [domSEC, domLINK], bit x.ack k = true ∧ bit x.req k = true) → linksSettled s t = true →
          (∀ k ∈ [domSEC, domBUF, domLINK], bit (getTile u t).stale k = false) ∧ (∀ c, c / 256 = t → getCtx u c = {}) ∧
          (∀ c, c / 256 ≠ t → getCtx u c = getCtx s c) ∧ ∀ a, sget 0 u.mem a = if a / 0x1000000 = t then 0 else sget 0 s.mem a))

/-- 00 R13, 03 R106 to R110, 04 R135, 19 R647: cluster reset and the key port's test leave everything at its reset value but the straps, the
flash, the scan port's instruction and the model's own fields; a start, once after a reset, accepts the first header slot that no check
refuses, or refuses both with their reasons; its last step shows DONE. -/
def Obligations.ResetAndStartReachTheirStates : Prop :=
  ∀ (s : State),
    let fresh : State := { State.reset with pending := s.pending, nTiles := s.nTiles, fresh := s.fresh, flash := s.flash, dbg := { ir := s.dbg.ir } }
    exec .clusterReset s = .next { fresh with kpTest := s.kpTest } ∧
    exec .keyPortTestAssert s = .next { fresh with kpTest := true } ∧
    exec .keyPortTestDeassert s = .next (if s.kpTest then { fresh with kpTest := false } else s) ∧
    (∀ env, s.begun = true ∨ s.kpTest = true → exec (.startSequence env) s = .next s) ∧
    (∀ env, s.begun = false → s.kpTest = false →
      let s1 := startUp s env
      let r0 := slotRefusal s1 env false
      let r1 := slotRefusal s1 env true
      ∃ t, exec (.startSequence env) s = .next t ∧ t.begun = true ∧
        (if r0 = 0 ∨ r1 = 0 then t.hdr = some (hdrOf (decide (r0 ≠ 0)) (slotBytes s (decide (r0 ≠ 0)))) ∧ fld (rg t bootA) 0 3 = 5 ∧
            bit (rg t bootA) 9 = decide (r0 ≠ 0)
         else t.hdr = s.hdr ∧ t.nvm.startOwned = true ∧ bit (rg t bootA) 6 = true ∧ fld (rg t bootA) 16 8 = r0 % 256 ∧
            fld (rg t bootA) 24 8 = r1 % 256 ∧ bit (rg t (ta 0 0x580000)) 7 = true)) ∧
    (fld (rg s bootA) 0 3 = 5 → ∃ t, exec .startComplete s = .next t ∧ fld (rg t bootA) 0 3 = 6 ∧ bit (rg t bootA) 7 = true ∧
      rg t bootTimeA = now32 s 0 ∧ Elsewhere s t (fun a => a = bootA ∨ a = bootTimeA)) ∧
    (fld (rg s bootA) 0 3 ≠ 5 → exec .startComplete s = .next s)
end

