-- ==== Sys2Proof/Laws/Instructions.lean ====
section
/-! SUPPORT. What the frame of an instruction does in a context that is ready: one lemma for each shared frame. -/
namespace Sys2Proof.Machine

/-- A context that does not run is left alone. -/
theorem runInsn_not_running (s : State) (c : Nat) (rep ok : Bool) (body : State → State) (h : mayRun s c = false) :
    runInsn s c rep ok body = s := by simp [runInsn, h]

/-- A refused fetch is an access-denied exception at the instruction, whatever the instruction. -/
theorem runInsn_refused_fetch (s : State) (c : Nat) (rep ok : Bool) (body : State → State) (h : mayRun s c = true)
    (ht : (getCtx s c).mid = true ∨ slotTime s c 32 = true) (hf : fetchOk s c = false) :
    runInsn s c rep ok body = raise_ s c 1 1 := by
  rcases ht with ht | ht <;> simp [runInsn, h, ht, hf]

/-- In a context that is ready the field check decides: the instruction's own effect, or an illegal-instruction exception at it. -/
theorem runInsn_ready (s : State) (c : Nat) (rep ok : Bool) (body : State → State) (h : Ready s c) :
    runInsn s c rep ok body = if ok then body s else raise_ s c 2 2 := by
  obtain ⟨h1, h2, h3, h4, h5⟩ := h
  have hw : (if rep || (getCtx s c).mid then (s, false) else watchExec s c) = (s, false) := by
    rcases h4 with h4 | h4
    · simp [h4]
    · split
      · rfl
      · exact h4
  simp only [runInsn, h1, h2, h3, hw]
  rcases h5 with h5 | h5 <;> simp [h5]

/-- An instruction that writes one register writes it and completes. -/
theorem runReg_ready (s : State) (c : Nat) (f : BitVec 23) (w : State → Vec) (h : Ready s c) :
    runReg s c f true w = next4 (setV s c (rdOf f) (w s)) c := by simp [runReg, runInsn_ready _ _ _ _ _ h]

/-- A field that the format does not allow: an illegal-instruction exception at the instruction. -/
theorem runReg_illegal (s : State) (c : Nat) (f : BitVec 23) (w : State → Vec) (h : Ready s c) :
    runReg s c f false w = raise_ s c 2 2 := by simp [runReg, runInsn_ready _ _ _ _ _ h]

/-- A branch in a context that is ready. -/
theorem runBr_ready (s : State) (c : Nat) (f : BitVec 23) (taken : Vec → Bool) (h : Ready s c) :
    runBr s c f taken = if taken (getV s c (raOf f)) then jumpTo s c ((getCtx s c).pc + 4 + dispBr f) else next4 s c := by
  simp [runBr, runInsn_ready _ _ _ _ _ h]

end Sys2Proof.Machine
end

