-- ==== Sys2Proof/Laws/Sparse.lean ====
section
/-! SUPPORT. Laws of sparse tables: what a read gives after a write, and that a write keeps the canonical form. -/
namespace Sys2Proof.Machine

variable {α : Type}

theorem sget_sdel_same (d : α) (m : Sparse α) (k : Nat) : sget d (sdel m k) k = d := by
  induction m with
  | nil => rfl
  | cons e m ih =>
    obtain ⟨j, x⟩ := e
    by_cases h : j = k <;> simp [sdel, sget, h, ih]

theorem sget_sdel_other (d : α) (m : Sparse α) (k j : Nat) (h : j ≠ k) : sget d (sdel m k) j = sget d m j := by
  induction m with
  | nil => rfl
  | cons e m ih =>
    obtain ⟨i, x⟩ := e
    by_cases hi : i = k
    · subst hi; simp [sdel, sget, ih, Ne.symm h]
    · by_cases hj : i = j
      · subst hj; simp [sdel, sget, hi]
      · simp [sdel, sget, hi, hj, ih]

theorem sget_sins_same (d : α) (m : Sparse α) (k : Nat) (v : α) (h : ∀ e ∈ m, e.1 ≠ k) : sget d (sins m k v) k = v := by
  induction m with
  | nil => simp [sins, sget]
  | cons e m ih =>
    obtain ⟨j, x⟩ := e
    have hj : j ≠ k := h (j, x) (by simp)
    have hm : ∀ e ∈ m, e.1 ≠ k := fun e he => h e (by simp [he])
    by_cases hk : k < j <;> simp [sins, sget, hk, hj, ih hm]

theorem sget_sins_other (d : α) (m : Sparse α) (k j : Nat) (v : α) (h : j ≠ k) : sget d (sins m k v) j = sget d m j := by
  induction m with
  | nil => simp [sins, sget, Ne.symm h]
  | cons e m ih =>
    obtain ⟨i, x⟩ := e
    by_cases hk : k < i
    · simp [sins, sget, hk, Ne.symm h]
    · by_cases hi : i = j
      · subst hi; simp [sins, sget, hk]
      · simp [sins, sget, hk, hi, ih]

theorem sdel_mem (m : Sparse α) (k : Nat) (e : Nat × α) (h : e ∈ sdel m k) : e ∈ m ∧ e.1 ≠ k := by
  induction m with
  | nil => simp [sdel] at h
  | cons a m ih =>
    obtain ⟨j, x⟩ := a
    by_cases hj : j = k
    · simp [sdel, hj] at h
      exact ⟨by simp [(ih h).1], (ih h).2⟩
    · simp [sdel, hj] at h
      rcases h with rfl | h
      · exact ⟨by simp, hj⟩
      · exact ⟨by simp [(ih h).1], (ih h).2⟩

/-- A key reads what was last written to it. -/
@[simp] theorem sget_sput_same [DecidableEq α] (d : α) (m : Sparse α) (k : Nat) (v : α) : sget d (sput d m k v) k = v := by
  unfold sput
  split
  · next h => rw [h]; exact sget_sdel_same d m k
  · exact sget_sins_same d _ k v fun e he => (sdel_mem m k e he).2

/-- Every other key reads as before. -/
@[simp] theorem sget_sput_other [DecidableEq α] (d d' : α) (m : Sparse α) (k j : Nat) (v : α) (h : j ≠ k) :
    sget d (sput d' m k v) j = sget d m j := by
  unfold sput
  split
  · exact sget_sdel_other d m k j h
  · rw [sget_sins_other d _ k j v h]; exact sget_sdel_other d m k j h

/-- One law for both. -/
theorem sget_sput [DecidableEq α] (d : α) (m : Sparse α) (k j : Nat) (v : α) :
    sget d (sput d m k v) j = if j = k then v else sget d m j := by
  by_cases h : j = k
  · subst h; simp
  · simp [h]

/-! ## The canonical form -/

theorem swfFrom_mono [DecidableEq α] (d : α) (m : Sparse α) (a b : Nat) (hab : a ≤ b) (h : swfFrom d b m = true) :
    swfFrom d a m = true := by
  cases m with
  | nil => rfl
  | cons e m =>
    obtain ⟨k, v⟩ := e
    simp [swfFrom] at h ⊢
    exact ⟨⟨by omega, h.1.2⟩, h.2⟩

theorem swfFrom_sdel [DecidableEq α] (d : α) (m : Sparse α) (k lo : Nat) (h : swfFrom d lo m = true) :
    swfFrom d lo (sdel m k) = true := by
  induction m generalizing lo with
  | nil => rfl
  | cons e m ih =>
    obtain ⟨j, v⟩ := e
    simp [swfFrom] at h
    by_cases hj : j = k
    · simp only [sdel, hj, if_true]
      exact swfFrom_mono d _ lo (j + 1) (by omega) (ih (j + 1) h.2)
    · simp [sdel, hj, swfFrom, h.1.1, h.1.2, ih (j + 1) h.2]

theorem swfFrom_sins [DecidableEq α] (d : α) (m : Sparse α) (k lo : Nat) (v : α) (hv : v ≠ d) (hk : lo ≤ k)
    (hm : ∀ e ∈ m, e.1 ≠ k) (h : swfFrom d lo m = true) : swfFrom d lo (sins m k v) = true := by
  induction m generalizing lo with
  | nil => simp [sins, swfFrom, hk, hv]
  | cons e m ih =>
    obtain ⟨j, x⟩ := e
    simp [swfFrom] at h
    have hj : j ≠ k := hm (j, x) (by simp)
    by_cases hlt : k < j
    · simp only [sins, hlt, if_true, swfFrom]
      simp [hk, hv, h.1.2, h.2]
      omega
    · simp only [sins, hlt, if_false, swfFrom]
      simp [h.1.1, h.1.2]
      exact ih (j + 1) (by omega) (fun e he => hm e (by simp [he])) h.2

/-- A write keeps the canonical form. -/
theorem swf_sput [DecidableEq α] (d : α) (m : Sparse α) (k : Nat) (v : α) (h : swf d m = true) : swf d (sput d m k v) = true := by
  unfold sput
  split
  · exact swfFrom_sdel d m k 0 h
  · next hv => exact swfFrom_sins d _ k 0 v hv (by omega) (fun e he => (sdel_mem m k e he).2) (swfFrom_sdel d m k 0 h)

/-- Dropping entries keeps the canonical form. -/
theorem swfFrom_filter [DecidableEq α] (d : α) (m : Sparse α) (p : Nat × α → Bool) (lo : Nat) (h : swfFrom d lo m = true) :
    swfFrom d lo (m.filter p) = true := by
  induction m generalizing lo with
  | nil => rfl
  | cons e m ih =>
    obtain ⟨j, v⟩ := e
    simp [swfFrom] at h
    by_cases hp : p (j, v) = true
    · simp [hp, swfFrom, h.1.1, h.1.2, ih (j + 1) h.2]
    · simp only [List.filter, hp]
      exact swfFrom_mono d _ lo (j + 1) (by omega) (ih (j + 1) h.2)

theorem swf_filter [DecidableEq α] (d : α) (m : Sparse α) (p : Nat × α → Bool) (h : swf d m = true) : swf d (m.filter p) = true :=
  swfFrom_filter d m p 0 h

theorem swfFrom_le [DecidableEq α] (d : α) (m : Sparse α) (lo : Nat) (h : swfFrom d lo m = true) (e : Nat × α) (he : e ∈ m) :
    lo ≤ e.1 ∧ e.2 ≠ d := by
  induction m generalizing lo with
  | nil => simp at he
  | cons a m ih =>
    obtain ⟨j, v⟩ := a
    simp [swfFrom] at h
    simp at he
    rcases he with rfl | he
    · exact h.1
    · have := ih (j + 1) h.2 he
      exact ⟨by omega, this.2⟩

/-- Equal reads are equal data: two canonical tables that read alike at every key are one list. -/
theorem swf_ext [DecidableEq α] (d : α) (m n : Sparse α) (lo : Nat) (hm : swfFrom d lo m = true) (hn : swfFrom d lo n = true)
    (h : ∀ k, sget d m k = sget d n k) : m = n := by
  induction m generalizing n lo with
  | nil =>
    cases n with
    | nil => rfl
    | cons e n =>
      obtain ⟨k, v⟩ := e
      have := h k
      simp [sget] at this
      exact absurd this.symm (swfFrom_le d _ lo hn (k, v) (by simp)).2
  | cons e m ih =>
    obtain ⟨j, x⟩ := e
    have hx := (swfFrom_le d _ lo hm (j, x) (by simp)).2
    cases n with
    | nil =>
      have := h j
      simp [sget] at this
      exact absurd this hx
    | cons e' n =>
      obtain ⟨k, v⟩ := e'
      have hv := (swfFrom_le d _ lo hn (k, v) (by simp)).2
      simp [swfFrom] at hm hn
      have low : ∀ (l : Sparse α) (b i : Nat), swfFrom d b l = true → i < b → sget d l i = d := by
        intro l
        induction l with
        | nil => intro b i _ _; rfl
        | cons a l ihl =>
          intro b i hb hi
          obtain ⟨p, q⟩ := a
          simp [swfFrom] at hb
          have : p ≠ i := by omega
          simp only [sget, this, if_false]
          exact ihl (p + 1) i hb.2 (by omega)
      rcases Nat.lt_trichotomy j k with hjk | hjk | hjk
      · have := h j
        have hne : k ≠ j := by omega
        simp only [sget, if_true, hne, if_false] at this
        rw [low n (k + 1) j hn.2 (by omega)] at this
        exact absurd this hx
      · subst hjk
        have hxv : x = v := by have := h j; simpa [sget] using this
        subst hxv
        have : m = n := ih n (j + 1) hm.2 hn.2 (by
          intro i
          by_cases hi : j = i
          · subst hi
            rw [low m (j + 1) j hm.2 (by omega), low n (j + 1) j hn.2 (by omega)]
          · have := h i
            simpa [sget, hi] using this)
        rw [this]
      · have := h k
        have hne : j ≠ k := by omega
        simp only [sget, if_true, hne, if_false] at this
        rw [low m (j + 1) k hm.2 (by omega)] at this
        exact absurd this.symm hv

end Sys2Proof.Machine
end

