-- ==== Sys2Proof/Laws/Memory.lean ====
section
/-! SUPPORT. What a byte of a memory reads as after each memory operation, and that each keeps the canonical form. -/
namespace Sys2Proof.Machine

/-- The canonical form of a memory is that of its table. -/
theorem Memory.wf_iff (d : Byte) (m : List Host.Cell) : Memory.wf d m = true ↔ swf d m = true := Iff.rfl

/-- A byte written: the bytes of the list at its addresses, every other byte as before. -/
theorem sget_writeBytes (d : Byte) (bs : List Byte) : ∀ (m : List Host.Cell) (a j : Nat),
    sget d (writeBytes d m a bs) j = if a ≤ j ∧ j < a + bs.length then bs.getD (j - a) 0 else sget d m j := by
  induction bs with
  | nil => intro m a j; rw [if_neg (by simp only [List.length_nil]; omega)]; rfl
  | cons b bs ih =>
    intro m a j
    rw [writeBytes, ih, sget_sput]
    rcases Nat.lt_trichotomy j a with h | h | h
    · rw [if_neg (by omega), if_neg (by omega), if_neg (by simp only [List.length_cons]; omega)]
    · subst h; rw [if_neg (by omega), if_pos (by simp)]; simp
    · obtain ⟨n, rfl⟩ : ∃ n, j = a + 1 + n := ⟨j - (a + 1), by omega⟩
      have e : a + 1 + n - a = n + 1 := by omega
      by_cases hn : n < bs.length
      · rw [if_pos (by omega), if_pos (by simp only [List.length_cons]; omega), e]; simp
      · rw [if_neg (by omega), if_neg (by omega), if_neg (by simp only [List.length_cons]; omega)]

/-- A byte outside those written reads as before. -/
theorem sget_writeBytes_outside (d : Byte) (bs : List Byte) (m : List Host.Cell) (a j : Nat) (h : j < a ∨ a + bs.length ≤ j) :
    sget d (writeBytes d m a bs) j = sget d m j := by
  rw [sget_writeBytes, if_neg (by omega)]

@[simp] theorem readBytes_length (d : Byte) (m : List Host.Cell) (a n : Nat) : (readBytes d m a n).length = n := by simp [readBytes]

/-- The bytes just written read back. -/
theorem readBytes_writeBytes_same (d : Byte) (m : List Host.Cell) (a : Nat) (bs : List Byte) :
    readBytes d (writeBytes d m a bs) a bs.length = bs := by
  apply List.ext_getElem
  · simp
  · intro i h1 h2
    simp [readBytes, sget_writeBytes, h2]

/-- Bytes apart from those written read as before. -/
theorem readBytes_writeBytes_apart (d : Byte) (m : List Host.Cell) (a b n : Nat) (bs : List Byte) (h : b + n ≤ a ∨ a + bs.length ≤ b) :
    readBytes d (writeBytes d m a bs) b n = readBytes d m b n := by
  apply List.map_congr_left
  intro i hi
  have := List.mem_range.mp hi
  exact sget_writeBytes_outside d bs m a (b + i) (by omega)

/-- Writing bytes keeps the canonical form. -/
theorem Memory.wf_writeBytes (d : Byte) (bs : List Byte) : ∀ (m : List Host.Cell) (a : Nat), Memory.wf d m = true →
    Memory.wf d (writeBytes d m a bs) = true := by
  induction bs with
  | nil => intro m a h; exact h
  | cons b bs ih => intro m a h; exact ih _ _ (swf_sput d m a b h)

/-- Erasing bytes keeps the canonical form. -/
theorem Memory.wf_eraseBytes (d : Byte) (m : List Host.Cell) (a n : Nat) (h : Memory.wf d m = true) :
    Memory.wf d (eraseBytes m a n) = true := swf_filter d m _ h

/-- Two memories in canonical form that read alike everywhere are equal. -/
theorem Memory.ext_of_reads (d : Byte) (m n : List Host.Cell) (hm : Memory.wf d m = true) (hn : Memory.wf d n = true)
    (h : ∀ a, sget d m a = sget d n a) : m = n := swf_ext d m n 0 hm hn h

/-- A filtered table reads as the default where the key is filtered out, else as before. -/
theorem sget_filter {α : Type} (d : α) (p : Nat → Bool) (m : Sparse α) (k : Nat) :
    sget d (m.filter fun e => p e.1) k = if p k then sget d m k else d := by
  induction m with
  | nil => simp [sget]
  | cons e m ih =>
    obtain ⟨j, x⟩ := e
    by_cases hp : p j = true
    · by_cases hj : j = k
      · subst hj; simp [hp, sget]
      · simp [hp, sget, hj, ih]
    · by_cases hj : j = k
      · subst hj; simp_all
      · simp [hp, sget, hj, ih]

/-- An erased byte reads as one that nothing has written; every other byte as before. -/
theorem sget_eraseBytes (d : Byte) (m : List Host.Cell) (a n j : Nat) :
    sget d (eraseBytes m a n) j = if a ≤ j ∧ j < a + n then d else sget d m j := by
  rw [eraseBytes, sget_filter d (fun k => k < a || a + n ≤ k)]
  by_cases h : a ≤ j ∧ j < a + n
  · rw [if_neg (by simp only [Bool.or_eq_true, decide_eq_true_eq]; omega), if_pos h]
  · rw [if_pos (by simp only [Bool.or_eq_true, decide_eq_true_eq]; omega), if_neg h]

@[simp] theorem leBytes_length (n v : Nat) : (leBytes n v).length = n := by
  induction n generalizing v with
  | zero => rfl
  | succ n ih => simp [leBytes, ih]

end Sys2Proof.Machine
end

