-- ==== Sys2Proof/Laws/State.lean ====
section
/-! SUPPORT. What the writers of the state leave alone: one lemma for each field and each writer, true by `rfl`, and what each reader
gives after each writer. -/
namespace Sys2Proof.Machine

variable (s : State) (k j a : Nat)


/-! ## `setTile` -/

@[simp] theorem setTile_pending (x : Tile) : (setTile s k x).pending = s.pending := rfl
@[simp] theorem setTile_nTiles (x : Tile) : (setTile s k x).nTiles = s.nTiles := rfl
@[simp] theorem setTile_begun (x : Tile) : (setTile s k x).begun = s.begun := rfl
@[simp] theorem setTile_kpTest (x : Tile) : (setTile s k x).kpTest = s.kpTest := rfl
@[simp] theorem setTile_fresh (x : Tile) : (setTile s k x).fresh = s.fresh := rfl
@[simp] theorem setTile_result (x : Tile) : (setTile s k x).result = s.result := rfl
@[simp] theorem setTile_regs (x : Tile) : (setTile s k x).regs = s.regs := rfl
@[simp] theorem setTile_staged (x : Tile) : (setTile s k x).staged = s.staged := rfl
@[simp] theorem setTile_ctxs (x : Tile) : (setTile s k x).ctxs = s.ctxs := rfl
@[simp] theorem setTile_engs (x : Tile) : (setTile s k x).engs = s.engs := rfl
@[simp] theorem setTile_srcs (x : Tile) : (setTile s k x).srcs = s.srcs := rfl
@[simp] theorem setTile_ports (x : Tile) : (setTile s k x).ports = s.ports := rfl
@[simp] theorem setTile_flows (x : Tile) : (setTile s k x).flows = s.flows := rfl
@[simp] theorem setTile_txqs (x : Tile) : (setTile s k x).txqs = s.txqs := rfl
@[simp] theorem setTile_pairs (x : Tile) : (setTile s k x).pairs = s.pairs := rfl
@[simp] theorem setTile_seqs (x : Tile) : (setTile s k x).seqs = s.seqs := rfl
@[simp] theorem setTile_tmrs (x : Tile) : (setTile s k x).tmrs = s.tmrs := rfl
@[simp] theorem setTile_pwms (x : Tile) : (setTile s k x).pwms = s.pwms := rfl
@[simp] theorem setTile_mbxs (x : Tile) : (setTile s k x).mbxs = s.mbxs := rfl
@[simp] theorem setTile_locks (x : Tile) : (setTile s k x).locks = s.locks := rfl
@[simp] theorem setTile_pmcs (x : Tile) : (setTile s k x).pmcs = s.pmcs := rfl
@[simp] theorem setTile_smps (x : Tile) : (setTile s k x).smps = s.smps := rfl
@[simp] theorem setTile_links (x : Tile) : (setTile s k x).links = s.links := rfl
@[simp] theorem setTile_mem (x : Tile) : (setTile s k x).mem = s.mem := rfl
@[simp] theorem setTile_code (x : Tile) : (setTile s k x).code = s.code := rfl
@[simp] theorem setTile_flash (x : Tile) : (setTile s k x).flash = s.flash := rfl
@[simp] theorem setTile_codeTag (x : Tile) : (setTile s k x).codeTag = s.codeTag := rfl
@[simp] theorem setTile_wstore (x : Tile) : (setTile s k x).wstore = s.wstore := rfl
@[simp] theorem setTile_dec (x : Tile) : (setTile s k x).dec = s.dec := rfl
@[simp] theorem setTile_mirror (x : Tile) : (setTile s k x).mirror = s.mirror := rfl
@[simp] theorem setTile_badBlk (x : Tile) : (setTile s k x).badBlk = s.badBlk := rfl
@[simp] theorem setTile_hdr (x : Tile) : (setTile s k x).hdr = s.hdr := rfl
@[simp] theorem setTile_fns (x : Tile) : (setTile s k x).fns = s.fns := rfl
@[simp] theorem setTile_nvm (x : Tile) : (setTile s k x).nvm = s.nvm := rfl
@[simp] theorem setTile_sec (x : Tile) : (setTile s k x).sec = s.sec := rfl
@[simp] theorem setTile_hp (x : Tile) : (setTile s k x).hp = s.hp := rfl
@[simp] theorem setTile_dbg (x : Tile) : (setTile s k x).dbg = s.dbg := rfl
@[simp] theorem setTile_getTile (x : Tile) : getTile (setTile s k x) j = if j = k then x else getTile s j := by
  simp [getTile, setTile, sget_sput]
@[simp] theorem setTile_getCtx (x : Tile) : getCtx (setTile s k x) j = getCtx s j := rfl
@[simp] theorem setTile_getEng (x : Tile) : getEng (setTile s k x) j = getEng s j := rfl
@[simp] theorem setTile_getSrc (x : Tile) : getSrc (setTile s k x) j = getSrc s j := rfl
@[simp] theorem setTile_getPort (x : Tile) : getPort (setTile s k x) j = getPort s j := rfl
@[simp] theorem setTile_getFlow (x : Tile) : getFlow (setTile s k x) j = getFlow s j := rfl
@[simp] theorem setTile_getTxQ (x : Tile) : getTxQ (setTile s k x) j = getTxQ s j := rfl
@[simp] theorem setTile_getPair (x : Tile) : getPair (setTile s k x) j = getPair s j := rfl
@[simp] theorem setTile_getSeq (x : Tile) : getSeq (setTile s k x) j = getSeq s j := rfl
@[simp] theorem setTile_getTmr (x : Tile) : getTmr (setTile s k x) j = getTmr s j := rfl
@[simp] theorem setTile_getPwm (x : Tile) : getPwm (setTile s k x) j = getPwm s j := rfl
@[simp] theorem setTile_getMbx (x : Tile) : getMbx (setTile s k x) j = getMbx s j := rfl
@[simp] theorem setTile_getPmc (x : Tile) : getPmc (setTile s k x) j = getPmc s j := rfl
@[simp] theorem setTile_getSmp (x : Tile) : getSmp (setTile s k x) j = getSmp s j := rfl
@[simp] theorem setTile_getLink (x : Tile) : getLink (setTile s k x) j = getLink s j := rfl
@[simp] theorem setTile_getCodeTag (x : Tile) : getCodeTag (setTile s k x) j = getCodeTag s j := rfl
@[simp] theorem setTile_getUWord (x : Tile) : getUWord (setTile s k x) j = getUWord s j := rfl
@[simp] theorem setTile_getDec (x : Tile) : getDec (setTile s k x) j = getDec s j := rfl
@[simp] theorem setTile_getMirror (x : Tile) : getMirror (setTile s k x) j = getMirror s j := rfl
@[simp] theorem setTile_getFn (x : Tile) : getFn (setTile s k x) j = getFn s j := rfl
@[simp] theorem setTile_rg (x : Tile) : rg (setTile s k x) j = rg s j := rfl
@[simp] theorem setTile_sg (x : Tile) : sg (setTile s k x) j = sg s j := rfl
@[simp] theorem setTile_getLock (x : Tile) : getLock (setTile s k x) j = getLock s j := rfl

/-! ## `setCtx` -/

@[simp] theorem setCtx_pending (x : Ctx) : (setCtx s k x).pending = s.pending := rfl
@[simp] theorem setCtx_nTiles (x : Ctx) : (setCtx s k x).nTiles = s.nTiles := rfl
@[simp] theorem setCtx_begun (x : Ctx) : (setCtx s k x).begun = s.begun := rfl
@[simp] theorem setCtx_kpTest (x : Ctx) : (setCtx s k x).kpTest = s.kpTest := rfl
@[simp] theorem setCtx_fresh (x : Ctx) : (setCtx s k x).fresh = s.fresh := rfl
@[simp] theorem setCtx_result (x : Ctx) : (setCtx s k x).result = s.result := rfl
@[simp] theorem setCtx_regs (x : Ctx) : (setCtx s k x).regs = s.regs := rfl
@[simp] theorem setCtx_staged (x : Ctx) : (setCtx s k x).staged = s.staged := rfl
@[simp] theorem setCtx_tiles (x : Ctx) : (setCtx s k x).tiles = s.tiles := rfl
@[simp] theorem setCtx_engs (x : Ctx) : (setCtx s k x).engs = s.engs := rfl
@[simp] theorem setCtx_srcs (x : Ctx) : (setCtx s k x).srcs = s.srcs := rfl
@[simp] theorem setCtx_ports (x : Ctx) : (setCtx s k x).ports = s.ports := rfl
@[simp] theorem setCtx_flows (x : Ctx) : (setCtx s k x).flows = s.flows := rfl
@[simp] theorem setCtx_txqs (x : Ctx) : (setCtx s k x).txqs = s.txqs := rfl
@[simp] theorem setCtx_pairs (x : Ctx) : (setCtx s k x).pairs = s.pairs := rfl
@[simp] theorem setCtx_seqs (x : Ctx) : (setCtx s k x).seqs = s.seqs := rfl
@[simp] theorem setCtx_tmrs (x : Ctx) : (setCtx s k x).tmrs = s.tmrs := rfl
@[simp] theorem setCtx_pwms (x : Ctx) : (setCtx s k x).pwms = s.pwms := rfl
@[simp] theorem setCtx_mbxs (x : Ctx) : (setCtx s k x).mbxs = s.mbxs := rfl
@[simp] theorem setCtx_locks (x : Ctx) : (setCtx s k x).locks = s.locks := rfl
@[simp] theorem setCtx_pmcs (x : Ctx) : (setCtx s k x).pmcs = s.pmcs := rfl
@[simp] theorem setCtx_smps (x : Ctx) : (setCtx s k x).smps = s.smps := rfl
@[simp] theorem setCtx_links (x : Ctx) : (setCtx s k x).links = s.links := rfl
@[simp] theorem setCtx_mem (x : Ctx) : (setCtx s k x).mem = s.mem := rfl
@[simp] theorem setCtx_code (x : Ctx) : (setCtx s k x).code = s.code := rfl
@[simp] theorem setCtx_flash (x : Ctx) : (setCtx s k x).flash = s.flash := rfl
@[simp] theorem setCtx_codeTag (x : Ctx) : (setCtx s k x).codeTag = s.codeTag := rfl
@[simp] theorem setCtx_wstore (x : Ctx) : (setCtx s k x).wstore = s.wstore := rfl
@[simp] theorem setCtx_dec (x : Ctx) : (setCtx s k x).dec = s.dec := rfl
@[simp] theorem setCtx_mirror (x : Ctx) : (setCtx s k x).mirror = s.mirror := rfl
@[simp] theorem setCtx_badBlk (x : Ctx) : (setCtx s k x).badBlk = s.badBlk := rfl
@[simp] theorem setCtx_hdr (x : Ctx) : (setCtx s k x).hdr = s.hdr := rfl
@[simp] theorem setCtx_fns (x : Ctx) : (setCtx s k x).fns = s.fns := rfl
@[simp] theorem setCtx_nvm (x : Ctx) : (setCtx s k x).nvm = s.nvm := rfl
@[simp] theorem setCtx_sec (x : Ctx) : (setCtx s k x).sec = s.sec := rfl
@[simp] theorem setCtx_hp (x : Ctx) : (setCtx s k x).hp = s.hp := rfl
@[simp] theorem setCtx_dbg (x : Ctx) : (setCtx s k x).dbg = s.dbg := rfl
@[simp] theorem setCtx_getTile (x : Ctx) : getTile (setCtx s k x) j = getTile s j := rfl
@[simp] theorem setCtx_getCtx (x : Ctx) : getCtx (setCtx s k x) j = if j = k then x else getCtx s j := by
  simp [getCtx, setCtx, sget_sput]
@[simp] theorem setCtx_getEng (x : Ctx) : getEng (setCtx s k x) j = getEng s j := rfl
@[simp] theorem setCtx_getSrc (x : Ctx) : getSrc (setCtx s k x) j = getSrc s j := rfl
@[simp] theorem setCtx_getPort (x : Ctx) : getPort (setCtx s k x) j = getPort s j := rfl
@[simp] theorem setCtx_getFlow (x : Ctx) : getFlow (setCtx s k x) j = getFlow s j := rfl
@[simp] theorem setCtx_getTxQ (x : Ctx) : getTxQ (setCtx s k x) j = getTxQ s j := rfl
@[simp] theorem setCtx_getPair (x : Ctx) : getPair (setCtx s k x) j = getPair s j := rfl
@[simp] theorem setCtx_getSeq (x : Ctx) : getSeq (setCtx s k x) j = getSeq s j := rfl
@[simp] theorem setCtx_getTmr (x : Ctx) : getTmr (setCtx s k x) j = getTmr s j := rfl
@[simp] theorem setCtx_getPwm (x : Ctx) : getPwm (setCtx s k x) j = getPwm s j := rfl
@[simp] theorem setCtx_getMbx (x : Ctx) : getMbx (setCtx s k x) j = getMbx s j := rfl
@[simp] theorem setCtx_getPmc (x : Ctx) : getPmc (setCtx s k x) j = getPmc s j := rfl
@[simp] theorem setCtx_getSmp (x : Ctx) : getSmp (setCtx s k x) j = getSmp s j := rfl
@[simp] theorem setCtx_getLink (x : Ctx) : getLink (setCtx s k x) j = getLink s j := rfl
@[simp] theorem setCtx_getCodeTag (x : Ctx) : getCodeTag (setCtx s k x) j = getCodeTag s j := rfl
@[simp] theorem setCtx_getUWord (x : Ctx) : getUWord (setCtx s k x) j = getUWord s j := rfl
@[simp] theorem setCtx_getDec (x : Ctx) : getDec (setCtx s k x) j = getDec s j := rfl
@[simp] theorem setCtx_getMirror (x : Ctx) : getMirror (setCtx s k x) j = getMirror s j := rfl
@[simp] theorem setCtx_getFn (x : Ctx) : getFn (setCtx s k x) j = getFn s j := rfl
@[simp] theorem setCtx_rg (x : Ctx) : rg (setCtx s k x) j = rg s j := rfl
@[simp] theorem setCtx_sg (x : Ctx) : sg (setCtx s k x) j = sg s j := rfl
@[simp] theorem setCtx_getLock (x : Ctx) : getLock (setCtx s k x) j = getLock s j := rfl

/-! ## `setEng` -/

@[simp] theorem setEng_pending (x : Engine) : (setEng s k x).pending = s.pending := rfl
@[simp] theorem setEng_nTiles (x : Engine) : (setEng s k x).nTiles = s.nTiles := rfl
@[simp] theorem setEng_begun (x : Engine) : (setEng s k x).begun = s.begun := rfl
@[simp] theorem setEng_kpTest (x : Engine) : (setEng s k x).kpTest = s.kpTest := rfl
@[simp] theorem setEng_fresh (x : Engine) : (setEng s k x).fresh = s.fresh := rfl
@[simp] theorem setEng_result (x : Engine) : (setEng s k x).result = s.result := rfl
@[simp] theorem setEng_regs (x : Engine) : (setEng s k x).regs = s.regs := rfl
@[simp] theorem setEng_staged (x : Engine) : (setEng s k x).staged = s.staged := rfl
@[simp] theorem setEng_tiles (x : Engine) : (setEng s k x).tiles = s.tiles := rfl
@[simp] theorem setEng_ctxs (x : Engine) : (setEng s k x).ctxs = s.ctxs := rfl
@[simp] theorem setEng_srcs (x : Engine) : (setEng s k x).srcs = s.srcs := rfl
@[simp] theorem setEng_ports (x : Engine) : (setEng s k x).ports = s.ports := rfl
@[simp] theorem setEng_flows (x : Engine) : (setEng s k x).flows = s.flows := rfl
@[simp] theorem setEng_txqs (x : Engine) : (setEng s k x).txqs = s.txqs := rfl
@[simp] theorem setEng_pairs (x : Engine) : (setEng s k x).pairs = s.pairs := rfl
@[simp] theorem setEng_seqs (x : Engine) : (setEng s k x).seqs = s.seqs := rfl
@[simp] theorem setEng_tmrs (x : Engine) : (setEng s k x).tmrs = s.tmrs := rfl
@[simp] theorem setEng_pwms (x : Engine) : (setEng s k x).pwms = s.pwms := rfl
@[simp] theorem setEng_mbxs (x : Engine) : (setEng s k x).mbxs = s.mbxs := rfl
@[simp] theorem setEng_locks (x : Engine) : (setEng s k x).locks = s.locks := rfl
@[simp] theorem setEng_pmcs (x : Engine) : (setEng s k x).pmcs = s.pmcs := rfl
@[simp] theorem setEng_smps (x : Engine) : (setEng s k x).smps = s.smps := rfl
@[simp] theorem setEng_links (x : Engine) : (setEng s k x).links = s.links := rfl
@[simp] theorem setEng_mem (x : Engine) : (setEng s k x).mem = s.mem := rfl
@[simp] theorem setEng_code (x : Engine) : (setEng s k x).code = s.code := rfl
@[simp] theorem setEng_flash (x : Engine) : (setEng s k x).flash = s.flash := rfl
@[simp] theorem setEng_codeTag (x : Engine) : (setEng s k x).codeTag = s.codeTag := rfl
@[simp] theorem setEng_wstore (x : Engine) : (setEng s k x).wstore = s.wstore := rfl
@[simp] theorem setEng_dec (x : Engine) : (setEng s k x).dec = s.dec := rfl
@[simp] theorem setEng_mirror (x : Engine) : (setEng s k x).mirror = s.mirror := rfl
@[simp] theorem setEng_badBlk (x : Engine) : (setEng s k x).badBlk = s.badBlk := rfl
@[simp] theorem setEng_hdr (x : Engine) : (setEng s k x).hdr = s.hdr := rfl
@[simp] theorem setEng_fns (x : Engine) : (setEng s k x).fns = s.fns := rfl
@[simp] theorem setEng_nvm (x : Engine) : (setEng s k x).nvm = s.nvm := rfl
@[simp] theorem setEng_sec (x : Engine) : (setEng s k x).sec = s.sec := rfl
@[simp] theorem setEng_hp (x : Engine) : (setEng s k x).hp = s.hp := rfl
@[simp] theorem setEng_dbg (x : Engine) : (setEng s k x).dbg = s.dbg := rfl
@[simp] theorem setEng_getTile (x : Engine) : getTile (setEng s k x) j = getTile s j := rfl
@[simp] theorem setEng_getCtx (x : Engine) : getCtx (setEng s k x) j = getCtx s j := rfl
@[simp] theorem setEng_getEng (x : Engine) : getEng (setEng s k x) j = if j = k then x else getEng s j := by
  simp [getEng, setEng, sget_sput]
@[simp] theorem setEng_getSrc (x : Engine) : getSrc (setEng s k x) j = getSrc s j := rfl
@[simp] theorem setEng_getPort (x : Engine) : getPort (setEng s k x) j = getPort s j := rfl
@[simp] theorem setEng_getFlow (x : Engine) : getFlow (setEng s k x) j = getFlow s j := rfl
@[simp] theorem setEng_getTxQ (x : Engine) : getTxQ (setEng s k x) j = getTxQ s j := rfl
@[simp] theorem setEng_getPair (x : Engine) : getPair (setEng s k x) j = getPair s j := rfl
@[simp] theorem setEng_getSeq (x : Engine) : getSeq (setEng s k x) j = getSeq s j := rfl
@[simp] theorem setEng_getTmr (x : Engine) : getTmr (setEng s k x) j = getTmr s j := rfl
@[simp] theorem setEng_getPwm (x : Engine) : getPwm (setEng s k x) j = getPwm s j := rfl
@[simp] theorem setEng_getMbx (x : Engine) : getMbx (setEng s k x) j = getMbx s j := rfl
@[simp] theorem setEng_getPmc (x : Engine) : getPmc (setEng s k x) j = getPmc s j := rfl
@[simp] theorem setEng_getSmp (x : Engine) : getSmp (setEng s k x) j = getSmp s j := rfl
@[simp] theorem setEng_getLink (x : Engine) : getLink (setEng s k x) j = getLink s j := rfl
@[simp] theorem setEng_getCodeTag (x : Engine) : getCodeTag (setEng s k x) j = getCodeTag s j := rfl
@[simp] theorem setEng_getUWord (x : Engine) : getUWord (setEng s k x) j = getUWord s j := rfl
@[simp] theorem setEng_getDec (x : Engine) : getDec (setEng s k x) j = getDec s j := rfl
@[simp] theorem setEng_getMirror (x : Engine) : getMirror (setEng s k x) j = getMirror s j := rfl
@[simp] theorem setEng_getFn (x : Engine) : getFn (setEng s k x) j = getFn s j := rfl
@[simp] theorem setEng_rg (x : Engine) : rg (setEng s k x) j = rg s j := rfl
@[simp] theorem setEng_sg (x : Engine) : sg (setEng s k x) j = sg s j := rfl
@[simp] theorem setEng_getLock (x : Engine) : getLock (setEng s k x) j = getLock s j := rfl

/-! ## `setSrc` -/

@[simp] theorem setSrc_pending (x : Src) : (setSrc s k x).pending = s.pending := rfl
@[simp] theorem setSrc_nTiles (x : Src) : (setSrc s k x).nTiles = s.nTiles := rfl
@[simp] theorem setSrc_begun (x : Src) : (setSrc s k x).begun = s.begun := rfl
@[simp] theorem setSrc_kpTest (x : Src) : (setSrc s k x).kpTest = s.kpTest := rfl
@[simp] theorem setSrc_fresh (x : Src) : (setSrc s k x).fresh = s.fresh := rfl
@[simp] theorem setSrc_result (x : Src) : (setSrc s k x).result = s.result := rfl
@[simp] theorem setSrc_regs (x : Src) : (setSrc s k x).regs = s.regs := rfl
@[simp] theorem setSrc_staged (x : Src) : (setSrc s k x).staged = s.staged := rfl
@[simp] theorem setSrc_tiles (x : Src) : (setSrc s k x).tiles = s.tiles := rfl
@[simp] theorem setSrc_ctxs (x : Src) : (setSrc s k x).ctxs = s.ctxs := rfl
@[simp] theorem setSrc_engs (x : Src) : (setSrc s k x).engs = s.engs := rfl
@[simp] theorem setSrc_ports (x : Src) : (setSrc s k x).ports = s.ports := rfl
@[simp] theorem setSrc_flows (x : Src) : (setSrc s k x).flows = s.flows := rfl
@[simp] theorem setSrc_txqs (x : Src) : (setSrc s k x).txqs = s.txqs := rfl
@[simp] theorem setSrc_pairs (x : Src) : (setSrc s k x).pairs = s.pairs := rfl
@[simp] theorem setSrc_seqs (x : Src) : (setSrc s k x).seqs = s.seqs := rfl
@[simp] theorem setSrc_tmrs (x : Src) : (setSrc s k x).tmrs = s.tmrs := rfl
@[simp] theorem setSrc_pwms (x : Src) : (setSrc s k x).pwms = s.pwms := rfl
@[simp] theorem setSrc_mbxs (x : Src) : (setSrc s k x).mbxs = s.mbxs := rfl
@[simp] theorem setSrc_locks (x : Src) : (setSrc s k x).locks = s.locks := rfl
@[simp] theorem setSrc_pmcs (x : Src) : (setSrc s k x).pmcs = s.pmcs := rfl
@[simp] theorem setSrc_smps (x : Src) : (setSrc s k x).smps = s.smps := rfl
@[simp] theorem setSrc_links (x : Src) : (setSrc s k x).links = s.links := rfl
@[simp] theorem setSrc_mem (x : Src) : (setSrc s k x).mem = s.mem := rfl
@[simp] theorem setSrc_code (x : Src) : (setSrc s k x).code = s.code := rfl
@[simp] theorem setSrc_flash (x : Src) : (setSrc s k x).flash = s.flash := rfl
@[simp] theorem setSrc_codeTag (x : Src) : (setSrc s k x).codeTag = s.codeTag := rfl
@[simp] theorem setSrc_wstore (x : Src) : (setSrc s k x).wstore = s.wstore := rfl
@[simp] theorem setSrc_dec (x : Src) : (setSrc s k x).dec = s.dec := rfl
@[simp] theorem setSrc_mirror (x : Src) : (setSrc s k x).mirror = s.mirror := rfl
@[simp] theorem setSrc_badBlk (x : Src) : (setSrc s k x).badBlk = s.badBlk := rfl
@[simp] theorem setSrc_hdr (x : Src) : (setSrc s k x).hdr = s.hdr := rfl
@[simp] theorem setSrc_fns (x : Src) : (setSrc s k x).fns = s.fns := rfl
@[simp] theorem setSrc_nvm (x : Src) : (setSrc s k x).nvm = s.nvm := rfl
@[simp] theorem setSrc_sec (x : Src) : (setSrc s k x).sec = s.sec := rfl
@[simp] theorem setSrc_hp (x : Src) : (setSrc s k x).hp = s.hp := rfl
@[simp] theorem setSrc_dbg (x : Src) : (setSrc s k x).dbg = s.dbg := rfl
@[simp] theorem setSrc_getTile (x : Src) : getTile (setSrc s k x) j = getTile s j := rfl
@[simp] theorem setSrc_getCtx (x : Src) : getCtx (setSrc s k x) j = getCtx s j := rfl
@[simp] theorem setSrc_getEng (x : Src) : getEng (setSrc s k x) j = getEng s j := rfl
@[simp] theorem setSrc_getSrc (x : Src) : getSrc (setSrc s k x) j = if j = k then x else getSrc s j := by
  simp [getSrc, setSrc, sget_sput]
@[simp] theorem setSrc_getPort (x : Src) : getPort (setSrc s k x) j = getPort s j := rfl
@[simp] theorem setSrc_getFlow (x : Src) : getFlow (setSrc s k x) j = getFlow s j := rfl
@[simp] theorem setSrc_getTxQ (x : Src) : getTxQ (setSrc s k x) j = getTxQ s j := rfl
@[simp] theorem setSrc_getPair (x : Src) : getPair (setSrc s k x) j = getPair s j := rfl
@[simp] theorem setSrc_getSeq (x : Src) : getSeq (setSrc s k x) j = getSeq s j := rfl
@[simp] theorem setSrc_getTmr (x : Src) : getTmr (setSrc s k x) j = getTmr s j := rfl
@[simp] theorem setSrc_getPwm (x : Src) : getPwm (setSrc s k x) j = getPwm s j := rfl
@[simp] theorem setSrc_getMbx (x : Src) : getMbx (setSrc s k x) j = getMbx s j := rfl
@[simp] theorem setSrc_getPmc (x : Src) : getPmc (setSrc s k x) j = getPmc s j := rfl
@[simp] theorem setSrc_getSmp (x : Src) : getSmp (setSrc s k x) j = getSmp s j := rfl
@[simp] theorem setSrc_getLink (x : Src) : getLink (setSrc s k x) j = getLink s j := rfl
@[simp] theorem setSrc_getCodeTag (x : Src) : getCodeTag (setSrc s k x) j = getCodeTag s j := rfl
@[simp] theorem setSrc_getUWord (x : Src) : getUWord (setSrc s k x) j = getUWord s j := rfl
@[simp] theorem setSrc_getDec (x : Src) : getDec (setSrc s k x) j = getDec s j := rfl
@[simp] theorem setSrc_getMirror (x : Src) : getMirror (setSrc s k x) j = getMirror s j := rfl
@[simp] theorem setSrc_getFn (x : Src) : getFn (setSrc s k x) j = getFn s j := rfl
@[simp] theorem setSrc_rg (x : Src) : rg (setSrc s k x) j = rg s j := rfl
@[simp] theorem setSrc_sg (x : Src) : sg (setSrc s k x) j = sg s j := rfl
@[simp] theorem setSrc_getLock (x : Src) : getLock (setSrc s k x) j = getLock s j := rfl

/-! ## `setPort` -/

@[simp] theorem setPort_pending (x : Port) : (setPort s k x).pending = s.pending := rfl
@[simp] theorem setPort_nTiles (x : Port) : (setPort s k x).nTiles = s.nTiles := rfl
@[simp] theorem setPort_begun (x : Port) : (setPort s k x).begun = s.begun := rfl
@[simp] theorem setPort_kpTest (x : Port) : (setPort s k x).kpTest = s.kpTest := rfl
@[simp] theorem setPort_fresh (x : Port) : (setPort s k x).fresh = s.fresh := rfl
@[simp] theorem setPort_result (x : Port) : (setPort s k x).result = s.result := rfl
@[simp] theorem setPort_regs (x : Port) : (setPort s k x).regs = s.regs := rfl
@[simp] theorem setPort_staged (x : Port) : (setPort s k x).staged = s.staged := rfl
@[simp] theorem setPort_tiles (x : Port) : (setPort s k x).tiles = s.tiles := rfl
@[simp] theorem setPort_ctxs (x : Port) : (setPort s k x).ctxs = s.ctxs := rfl
@[simp] theorem setPort_engs (x : Port) : (setPort s k x).engs = s.engs := rfl
@[simp] theorem setPort_srcs (x : Port) : (setPort s k x).srcs = s.srcs := rfl
@[simp] theorem setPort_flows (x : Port) : (setPort s k x).flows = s.flows := rfl
@[simp] theorem setPort_txqs (x : Port) : (setPort s k x).txqs = s.txqs := rfl
@[simp] theorem setPort_pairs (x : Port) : (setPort s k x).pairs = s.pairs := rfl
@[simp] theorem setPort_seqs (x : Port) : (setPort s k x).seqs = s.seqs := rfl
@[simp] theorem setPort_tmrs (x : Port) : (setPort s k x).tmrs = s.tmrs := rfl
@[simp] theorem setPort_pwms (x : Port) : (setPort s k x).pwms = s.pwms := rfl
@[simp] theorem setPort_mbxs (x : Port) : (setPort s k x).mbxs = s.mbxs := rfl
@[simp] theorem setPort_locks (x : Port) : (setPort s k x).locks = s.locks := rfl
@[simp] theorem setPort_pmcs (x : Port) : (setPort s k x).pmcs = s.pmcs := rfl
@[simp] theorem setPort_smps (x : Port) : (setPort s k x).smps = s.smps := rfl
@[simp] theorem setPort_links (x : Port) : (setPort s k x).links = s.links := rfl
@[simp] theorem setPort_mem (x : Port) : (setPort s k x).mem = s.mem := rfl
@[simp] theorem setPort_code (x : Port) : (setPort s k x).code = s.code := rfl
@[simp] theorem setPort_flash (x : Port) : (setPort s k x).flash = s.flash := rfl
@[simp] theorem setPort_codeTag (x : Port) : (setPort s k x).codeTag = s.codeTag := rfl
@[simp] theorem setPort_wstore (x : Port) : (setPort s k x).wstore = s.wstore := rfl
@[simp] theorem setPort_dec (x : Port) : (setPort s k x).dec = s.dec := rfl
@[simp] theorem setPort_mirror (x : Port) : (setPort s k x).mirror = s.mirror := rfl
@[simp] theorem setPort_badBlk (x : Port) : (setPort s k x).badBlk = s.badBlk := rfl
@[simp] theorem setPort_hdr (x : Port) : (setPort s k x).hdr = s.hdr := rfl
@[simp] theorem setPort_fns (x : Port) : (setPort s k x).fns = s.fns := rfl
@[simp] theorem setPort_nvm (x : Port) : (setPort s k x).nvm = s.nvm := rfl
@[simp] theorem setPort_sec (x : Port) : (setPort s k x).sec = s.sec := rfl
@[simp] theorem setPort_hp (x : Port) : (setPort s k x).hp = s.hp := rfl
@[simp] theorem setPort_dbg (x : Port) : (setPort s k x).dbg = s.dbg := rfl
@[simp] theorem setPort_getTile (x : Port) : getTile (setPort s k x) j = getTile s j := rfl
@[simp] theorem setPort_getCtx (x : Port) : getCtx (setPort s k x) j = getCtx s j := rfl
@[simp] theorem setPort_getEng (x : Port) : getEng (setPort s k x) j = getEng s j := rfl
@[simp] theorem setPort_getSrc (x : Port) : getSrc (setPort s k x) j = getSrc s j := rfl
@[simp] theorem setPort_getPort (x : Port) : getPort (setPort s k x) j = if j = k then x else getPort s j := by
  simp [getPort, setPort, sget_sput]
@[simp] theorem setPort_getFlow (x : Port) : getFlow (setPort s k x) j = getFlow s j := rfl
@[simp] theorem setPort_getTxQ (x : Port) : getTxQ (setPort s k x) j = getTxQ s j := rfl
@[simp] theorem setPort_getPair (x : Port) : getPair (setPort s k x) j = getPair s j := rfl
@[simp] theorem setPort_getSeq (x : Port) : getSeq (setPort s k x) j = getSeq s j := rfl
@[simp] theorem setPort_getTmr (x : Port) : getTmr (setPort s k x) j = getTmr s j := rfl
@[simp] theorem setPort_getPwm (x : Port) : getPwm (setPort s k x) j = getPwm s j := rfl
@[simp] theorem setPort_getMbx (x : Port) : getMbx (setPort s k x) j = getMbx s j := rfl
@[simp] theorem setPort_getPmc (x : Port) : getPmc (setPort s k x) j = getPmc s j := rfl
@[simp] theorem setPort_getSmp (x : Port) : getSmp (setPort s k x) j = getSmp s j := rfl
@[simp] theorem setPort_getLink (x : Port) : getLink (setPort s k x) j = getLink s j := rfl
@[simp] theorem setPort_getCodeTag (x : Port) : getCodeTag (setPort s k x) j = getCodeTag s j := rfl
@[simp] theorem setPort_getUWord (x : Port) : getUWord (setPort s k x) j = getUWord s j := rfl
@[simp] theorem setPort_getDec (x : Port) : getDec (setPort s k x) j = getDec s j := rfl
@[simp] theorem setPort_getMirror (x : Port) : getMirror (setPort s k x) j = getMirror s j := rfl
@[simp] theorem setPort_getFn (x : Port) : getFn (setPort s k x) j = getFn s j := rfl
@[simp] theorem setPort_rg (x : Port) : rg (setPort s k x) j = rg s j := rfl
@[simp] theorem setPort_sg (x : Port) : sg (setPort s k x) j = sg s j := rfl
@[simp] theorem setPort_getLock (x : Port) : getLock (setPort s k x) j = getLock s j := rfl

/-! ## `setFlow` -/

@[simp] theorem setFlow_pending (x : Flow) : (setFlow s k x).pending = s.pending := rfl
@[simp] theorem setFlow_nTiles (x : Flow) : (setFlow s k x).nTiles = s.nTiles := rfl
@[simp] theorem setFlow_begun (x : Flow) : (setFlow s k x).begun = s.begun := rfl
@[simp] theorem setFlow_kpTest (x : Flow) : (setFlow s k x).kpTest = s.kpTest := rfl
@[simp] theorem setFlow_fresh (x : Flow) : (setFlow s k x).fresh = s.fresh := rfl
@[simp] theorem setFlow_result (x : Flow) : (setFlow s k x).result = s.result := rfl
@[simp] theorem setFlow_regs (x : Flow) : (setFlow s k x).regs = s.regs := rfl
@[simp] theorem setFlow_staged (x : Flow) : (setFlow s k x).staged = s.staged := rfl
@[simp] theorem setFlow_tiles (x : Flow) : (setFlow s k x).tiles = s.tiles := rfl
@[simp] theorem setFlow_ctxs (x : Flow) : (setFlow s k x).ctxs = s.ctxs := rfl
@[simp] theorem setFlow_engs (x : Flow) : (setFlow s k x).engs = s.engs := rfl
@[simp] theorem setFlow_srcs (x : Flow) : (setFlow s k x).srcs = s.srcs := rfl
@[simp] theorem setFlow_ports (x : Flow) : (setFlow s k x).ports = s.ports := rfl
@[simp] theorem setFlow_txqs (x : Flow) : (setFlow s k x).txqs = s.txqs := rfl
@[simp] theorem setFlow_pairs (x : Flow) : (setFlow s k x).pairs = s.pairs := rfl
@[simp] theorem setFlow_seqs (x : Flow) : (setFlow s k x).seqs = s.seqs := rfl
@[simp] theorem setFlow_tmrs (x : Flow) : (setFlow s k x).tmrs = s.tmrs := rfl
@[simp] theorem setFlow_pwms (x : Flow) : (setFlow s k x).pwms = s.pwms := rfl
@[simp] theorem setFlow_mbxs (x : Flow) : (setFlow s k x).mbxs = s.mbxs := rfl
@[simp] theorem setFlow_locks (x : Flow) : (setFlow s k x).locks = s.locks := rfl
@[simp] theorem setFlow_pmcs (x : Flow) : (setFlow s k x).pmcs = s.pmcs := rfl
@[simp] theorem setFlow_smps (x : Flow) : (setFlow s k x).smps = s.smps := rfl
@[simp] theorem setFlow_links (x : Flow) : (setFlow s k x).links = s.links := rfl
@[simp] theorem setFlow_mem (x : Flow) : (setFlow s k x).mem = s.mem := rfl
@[simp] theorem setFlow_code (x : Flow) : (setFlow s k x).code = s.code := rfl
@[simp] theorem setFlow_flash (x : Flow) : (setFlow s k x).flash = s.flash := rfl
@[simp] theorem setFlow_codeTag (x : Flow) : (setFlow s k x).codeTag = s.codeTag := rfl
@[simp] theorem setFlow_wstore (x : Flow) : (setFlow s k x).wstore = s.wstore := rfl
@[simp] theorem setFlow_dec (x : Flow) : (setFlow s k x).dec = s.dec := rfl
@[simp] theorem setFlow_mirror (x : Flow) : (setFlow s k x).mirror = s.mirror := rfl
@[simp] theorem setFlow_badBlk (x : Flow) : (setFlow s k x).badBlk = s.badBlk := rfl
@[simp] theorem setFlow_hdr (x : Flow) : (setFlow s k x).hdr = s.hdr := rfl
@[simp] theorem setFlow_fns (x : Flow) : (setFlow s k x).fns = s.fns := rfl
@[simp] theorem setFlow_nvm (x : Flow) : (setFlow s k x).nvm = s.nvm := rfl
@[simp] theorem setFlow_sec (x : Flow) : (setFlow s k x).sec = s.sec := rfl
@[simp] theorem setFlow_hp (x : Flow) : (setFlow s k x).hp = s.hp := rfl
@[simp] theorem setFlow_dbg (x : Flow) : (setFlow s k x).dbg = s.dbg := rfl
@[simp] theorem setFlow_getTile (x : Flow) : getTile (setFlow s k x) j = getTile s j := rfl
@[simp] theorem setFlow_getCtx (x : Flow) : getCtx (setFlow s k x) j = getCtx s j := rfl
@[simp] theorem setFlow_getEng (x : Flow) : getEng (setFlow s k x) j = getEng s j := rfl
@[simp] theorem setFlow_getSrc (x : Flow) : getSrc (setFlow s k x) j = getSrc s j := rfl
@[simp] theorem setFlow_getPort (x : Flow) : getPort (setFlow s k x) j = getPort s j := rfl
@[simp] theorem setFlow_getFlow (x : Flow) : getFlow (setFlow s k x) j = if j = k then x else getFlow s j := by
  simp [getFlow, setFlow, sget_sput]
@[simp] theorem setFlow_getTxQ (x : Flow) : getTxQ (setFlow s k x) j = getTxQ s j := rfl
@[simp] theorem setFlow_getPair (x : Flow) : getPair (setFlow s k x) j = getPair s j := rfl
@[simp] theorem setFlow_getSeq (x : Flow) : getSeq (setFlow s k x) j = getSeq s j := rfl
@[simp] theorem setFlow_getTmr (x : Flow) : getTmr (setFlow s k x) j = getTmr s j := rfl
@[simp] theorem setFlow_getPwm (x : Flow) : getPwm (setFlow s k x) j = getPwm s j := rfl
@[simp] theorem setFlow_getMbx (x : Flow) : getMbx (setFlow s k x) j = getMbx s j := rfl
@[simp] theorem setFlow_getPmc (x : Flow) : getPmc (setFlow s k x) j = getPmc s j := rfl
@[simp] theorem setFlow_getSmp (x : Flow) : getSmp (setFlow s k x) j = getSmp s j := rfl
@[simp] theorem setFlow_getLink (x : Flow) : getLink (setFlow s k x) j = getLink s j := rfl
@[simp] theorem setFlow_getCodeTag (x : Flow) : getCodeTag (setFlow s k x) j = getCodeTag s j := rfl
@[simp] theorem setFlow_getUWord (x : Flow) : getUWord (setFlow s k x) j = getUWord s j := rfl
@[simp] theorem setFlow_getDec (x : Flow) : getDec (setFlow s k x) j = getDec s j := rfl
@[simp] theorem setFlow_getMirror (x : Flow) : getMirror (setFlow s k x) j = getMirror s j := rfl
@[simp] theorem setFlow_getFn (x : Flow) : getFn (setFlow s k x) j = getFn s j := rfl
@[simp] theorem setFlow_rg (x : Flow) : rg (setFlow s k x) j = rg s j := rfl
@[simp] theorem setFlow_sg (x : Flow) : sg (setFlow s k x) j = sg s j := rfl
@[simp] theorem setFlow_getLock (x : Flow) : getLock (setFlow s k x) j = getLock s j := rfl

/-! ## `setTxQ` -/

@[simp] theorem setTxQ_pending (x : TxQ) : (setTxQ s k x).pending = s.pending := rfl
@[simp] theorem setTxQ_nTiles (x : TxQ) : (setTxQ s k x).nTiles = s.nTiles := rfl
@[simp] theorem setTxQ_begun (x : TxQ) : (setTxQ s k x).begun = s.begun := rfl
@[simp] theorem setTxQ_kpTest (x : TxQ) : (setTxQ s k x).kpTest = s.kpTest := rfl
@[simp] theorem setTxQ_fresh (x : TxQ) : (setTxQ s k x).fresh = s.fresh := rfl
@[simp] theorem setTxQ_result (x : TxQ) : (setTxQ s k x).result = s.result := rfl
@[simp] theorem setTxQ_regs (x : TxQ) : (setTxQ s k x).regs = s.regs := rfl
@[simp] theorem setTxQ_staged (x : TxQ) : (setTxQ s k x).staged = s.staged := rfl
@[simp] theorem setTxQ_tiles (x : TxQ) : (setTxQ s k x).tiles = s.tiles := rfl
@[simp] theorem setTxQ_ctxs (x : TxQ) : (setTxQ s k x).ctxs = s.ctxs := rfl
@[simp] theorem setTxQ_engs (x : TxQ) : (setTxQ s k x).engs = s.engs := rfl
@[simp] theorem setTxQ_srcs (x : TxQ) : (setTxQ s k x).srcs = s.srcs := rfl
@[simp] theorem setTxQ_ports (x : TxQ) : (setTxQ s k x).ports = s.ports := rfl
@[simp] theorem setTxQ_flows (x : TxQ) : (setTxQ s k x).flows = s.flows := rfl
@[simp] theorem setTxQ_pairs (x : TxQ) : (setTxQ s k x).pairs = s.pairs := rfl
@[simp] theorem setTxQ_seqs (x : TxQ) : (setTxQ s k x).seqs = s.seqs := rfl
@[simp] theorem setTxQ_tmrs (x : TxQ) : (setTxQ s k x).tmrs = s.tmrs := rfl
@[simp] theorem setTxQ_pwms (x : TxQ) : (setTxQ s k x).pwms = s.pwms := rfl
@[simp] theorem setTxQ_mbxs (x : TxQ) : (setTxQ s k x).mbxs = s.mbxs := rfl
@[simp] theorem setTxQ_locks (x : TxQ) : (setTxQ s k x).locks = s.locks := rfl
@[simp] theorem setTxQ_pmcs (x : TxQ) : (setTxQ s k x).pmcs = s.pmcs := rfl
@[simp] theorem setTxQ_smps (x : TxQ) : (setTxQ s k x).smps = s.smps := rfl
@[simp] theorem setTxQ_links (x : TxQ) : (setTxQ s k x).links = s.links := rfl
@[simp] theorem setTxQ_mem (x : TxQ) : (setTxQ s k x).mem = s.mem := rfl
@[simp] theorem setTxQ_code (x : TxQ) : (setTxQ s k x).code = s.code := rfl
@[simp] theorem setTxQ_flash (x : TxQ) : (setTxQ s k x).flash = s.flash := rfl
@[simp] theorem setTxQ_codeTag (x : TxQ) : (setTxQ s k x).codeTag = s.codeTag := rfl
@[simp] theorem setTxQ_wstore (x : TxQ) : (setTxQ s k x).wstore = s.wstore := rfl
@[simp] theorem setTxQ_dec (x : TxQ) : (setTxQ s k x).dec = s.dec := rfl
@[simp] theorem setTxQ_mirror (x : TxQ) : (setTxQ s k x).mirror = s.mirror := rfl
@[simp] theorem setTxQ_badBlk (x : TxQ) : (setTxQ s k x).badBlk = s.badBlk := rfl
@[simp] theorem setTxQ_hdr (x : TxQ) : (setTxQ s k x).hdr = s.hdr := rfl
@[simp] theorem setTxQ_fns (x : TxQ) : (setTxQ s k x).fns = s.fns := rfl
@[simp] theorem setTxQ_nvm (x : TxQ) : (setTxQ s k x).nvm = s.nvm := rfl
@[simp] theorem setTxQ_sec (x : TxQ) : (setTxQ s k x).sec = s.sec := rfl
@[simp] theorem setTxQ_hp (x : TxQ) : (setTxQ s k x).hp = s.hp := rfl
@[simp] theorem setTxQ_dbg (x : TxQ) : (setTxQ s k x).dbg = s.dbg := rfl
@[simp] theorem setTxQ_getTile (x : TxQ) : getTile (setTxQ s k x) j = getTile s j := rfl
@[simp] theorem setTxQ_getCtx (x : TxQ) : getCtx (setTxQ s k x) j = getCtx s j := rfl
@[simp] theorem setTxQ_getEng (x : TxQ) : getEng (setTxQ s k x) j = getEng s j := rfl
@[simp] theorem setTxQ_getSrc (x : TxQ) : getSrc (setTxQ s k x) j = getSrc s j := rfl
@[simp] theorem setTxQ_getPort (x : TxQ) : getPort (setTxQ s k x) j = getPort s j := rfl
@[simp] theorem setTxQ_getFlow (x : TxQ) : getFlow (setTxQ s k x) j = getFlow s j := rfl
@[simp] theorem setTxQ_getTxQ (x : TxQ) : getTxQ (setTxQ s k x) j = if j = k then x else getTxQ s j := by
  simp [getTxQ, setTxQ, sget_sput]
@[simp] theorem setTxQ_getPair (x : TxQ) : getPair (setTxQ s k x) j = getPair s j := rfl
@[simp] theorem setTxQ_getSeq (x : TxQ) : getSeq (setTxQ s k x) j = getSeq s j := rfl
@[simp] theorem setTxQ_getTmr (x : TxQ) : getTmr (setTxQ s k x) j = getTmr s j := rfl
@[simp] theorem setTxQ_getPwm (x : TxQ) : getPwm (setTxQ s k x) j = getPwm s j := rfl
@[simp] theorem setTxQ_getMbx (x : TxQ) : getMbx (setTxQ s k x) j = getMbx s j := rfl
@[simp] theorem setTxQ_getPmc (x : TxQ) : getPmc (setTxQ s k x) j = getPmc s j := rfl
@[simp] theorem setTxQ_getSmp (x : TxQ) : getSmp (setTxQ s k x) j = getSmp s j := rfl
@[simp] theorem setTxQ_getLink (x : TxQ) : getLink (setTxQ s k x) j = getLink s j := rfl
@[simp] theorem setTxQ_getCodeTag (x : TxQ) : getCodeTag (setTxQ s k x) j = getCodeTag s j := rfl
@[simp] theorem setTxQ_getUWord (x : TxQ) : getUWord (setTxQ s k x) j = getUWord s j := rfl
@[simp] theorem setTxQ_getDec (x : TxQ) : getDec (setTxQ s k x) j = getDec s j := rfl
@[simp] theorem setTxQ_getMirror (x : TxQ) : getMirror (setTxQ s k x) j = getMirror s j := rfl
@[simp] theorem setTxQ_getFn (x : TxQ) : getFn (setTxQ s k x) j = getFn s j := rfl
@[simp] theorem setTxQ_rg (x : TxQ) : rg (setTxQ s k x) j = rg s j := rfl
@[simp] theorem setTxQ_sg (x : TxQ) : sg (setTxQ s k x) j = sg s j := rfl
@[simp] theorem setTxQ_getLock (x : TxQ) : getLock (setTxQ s k x) j = getLock s j := rfl

/-! ## `setPair` -/

@[simp] theorem setPair_pending (x : Pair) : (setPair s k x).pending = s.pending := rfl
@[simp] theorem setPair_nTiles (x : Pair) : (setPair s k x).nTiles = s.nTiles := rfl
@[simp] theorem setPair_begun (x : Pair) : (setPair s k x).begun = s.begun := rfl
@[simp] theorem setPair_kpTest (x : Pair) : (setPair s k x).kpTest = s.kpTest := rfl
@[simp] theorem setPair_fresh (x : Pair) : (setPair s k x).fresh = s.fresh := rfl
@[simp] theorem setPair_result (x : Pair) : (setPair s k x).result = s.result := rfl
@[simp] theorem setPair_regs (x : Pair) : (setPair s k x).regs = s.regs := rfl
@[simp] theorem setPair_staged (x : Pair) : (setPair s k x).staged = s.staged := rfl
@[simp] theorem setPair_tiles (x : Pair) : (setPair s k x).tiles = s.tiles := rfl
@[simp] theorem setPair_ctxs (x : Pair) : (setPair s k x).ctxs = s.ctxs := rfl
@[simp] theorem setPair_engs (x : Pair) : (setPair s k x).engs = s.engs := rfl
@[simp] theorem setPair_srcs (x : Pair) : (setPair s k x).srcs = s.srcs := rfl
@[simp] theorem setPair_ports (x : Pair) : (setPair s k x).ports = s.ports := rfl
@[simp] theorem setPair_flows (x : Pair) : (setPair s k x).flows = s.flows := rfl
@[simp] theorem setPair_txqs (x : Pair) : (setPair s k x).txqs = s.txqs := rfl
@[simp] theorem setPair_seqs (x : Pair) : (setPair s k x).seqs = s.seqs := rfl
@[simp] theorem setPair_tmrs (x : Pair) : (setPair s k x).tmrs = s.tmrs := rfl
@[simp] theorem setPair_pwms (x : Pair) : (setPair s k x).pwms = s.pwms := rfl
@[simp] theorem setPair_mbxs (x : Pair) : (setPair s k x).mbxs = s.mbxs := rfl
@[simp] theorem setPair_locks (x : Pair) : (setPair s k x).locks = s.locks := rfl
@[simp] theorem setPair_pmcs (x : Pair) : (setPair s k x).pmcs = s.pmcs := rfl
@[simp] theorem setPair_smps (x : Pair) : (setPair s k x).smps = s.smps := rfl
@[simp] theorem setPair_links (x : Pair) : (setPair s k x).links = s.links := rfl
@[simp] theorem setPair_mem (x : Pair) : (setPair s k x).mem = s.mem := rfl
@[simp] theorem setPair_code (x : Pair) : (setPair s k x).code = s.code := rfl
@[simp] theorem setPair_flash (x : Pair) : (setPair s k x).flash = s.flash := rfl
@[simp] theorem setPair_codeTag (x : Pair) : (setPair s k x).codeTag = s.codeTag := rfl
@[simp] theorem setPair_wstore (x : Pair) : (setPair s k x).wstore = s.wstore := rfl
@[simp] theorem setPair_dec (x : Pair) : (setPair s k x).dec = s.dec := rfl
@[simp] theorem setPair_mirror (x : Pair) : (setPair s k x).mirror = s.mirror := rfl
@[simp] theorem setPair_badBlk (x : Pair) : (setPair s k x).badBlk = s.badBlk := rfl
@[simp] theorem setPair_hdr (x : Pair) : (setPair s k x).hdr = s.hdr := rfl
@[simp] theorem setPair_fns (x : Pair) : (setPair s k x).fns = s.fns := rfl
@[simp] theorem setPair_nvm (x : Pair) : (setPair s k x).nvm = s.nvm := rfl
@[simp] theorem setPair_sec (x : Pair) : (setPair s k x).sec = s.sec := rfl
@[simp] theorem setPair_hp (x : Pair) : (setPair s k x).hp = s.hp := rfl
@[simp] theorem setPair_dbg (x : Pair) : (setPair s k x).dbg = s.dbg := rfl
@[simp] theorem setPair_getTile (x : Pair) : getTile (setPair s k x) j = getTile s j := rfl
@[simp] theorem setPair_getCtx (x : Pair) : getCtx (setPair s k x) j = getCtx s j := rfl
@[simp] theorem setPair_getEng (x : Pair) : getEng (setPair s k x) j = getEng s j := rfl
@[simp] theorem setPair_getSrc (x : Pair) : getSrc (setPair s k x) j = getSrc s j := rfl
@[simp] theorem setPair_getPort (x : Pair) : getPort (setPair s k x) j = getPort s j := rfl
@[simp] theorem setPair_getFlow (x : Pair) : getFlow (setPair s k x) j = getFlow s j := rfl
@[simp] theorem setPair_getTxQ (x : Pair) : getTxQ (setPair s k x) j = getTxQ s j := rfl
@[simp] theorem setPair_getPair (x : Pair) : getPair (setPair s k x) j = if j = k then x else getPair s j := by
  simp [getPair, setPair, sget_sput]
@[simp] theorem setPair_getSeq (x : Pair) : getSeq (setPair s k x) j = getSeq s j := rfl
@[simp] theorem setPair_getTmr (x : Pair) : getTmr (setPair s k x) j = getTmr s j := rfl
@[simp] theorem setPair_getPwm (x : Pair) : getPwm (setPair s k x) j = getPwm s j := rfl
@[simp] theorem setPair_getMbx (x : Pair) : getMbx (setPair s k x) j = getMbx s j := rfl
@[simp] theorem setPair_getPmc (x : Pair) : getPmc (setPair s k x) j = getPmc s j := rfl
@[simp] theorem setPair_getSmp (x : Pair) : getSmp (setPair s k x) j = getSmp s j := rfl
@[simp] theorem setPair_getLink (x : Pair) : getLink (setPair s k x) j = getLink s j := rfl
@[simp] theorem setPair_getCodeTag (x : Pair) : getCodeTag (setPair s k x) j = getCodeTag s j := rfl
@[simp] theorem setPair_getUWord (x : Pair) : getUWord (setPair s k x) j = getUWord s j := rfl
@[simp] theorem setPair_getDec (x : Pair) : getDec (setPair s k x) j = getDec s j := rfl
@[simp] theorem setPair_getMirror (x : Pair) : getMirror (setPair s k x) j = getMirror s j := rfl
@[simp] theorem setPair_getFn (x : Pair) : getFn (setPair s k x) j = getFn s j := rfl
@[simp] theorem setPair_rg (x : Pair) : rg (setPair s k x) j = rg s j := rfl
@[simp] theorem setPair_sg (x : Pair) : sg (setPair s k x) j = sg s j := rfl
@[simp] theorem setPair_getLock (x : Pair) : getLock (setPair s k x) j = getLock s j := rfl

/-! ## `setSeq` -/

@[simp] theorem setSeq_pending (x : Seq) : (setSeq s k x).pending = s.pending := rfl
@[simp] theorem setSeq_nTiles (x : Seq) : (setSeq s k x).nTiles = s.nTiles := rfl
@[simp] theorem setSeq_begun (x : Seq) : (setSeq s k x).begun = s.begun := rfl
@[simp] theorem setSeq_kpTest (x : Seq) : (setSeq s k x).kpTest = s.kpTest := rfl
@[simp] theorem setSeq_fresh (x : Seq) : (setSeq s k x).fresh = s.fresh := rfl
@[simp] theorem setSeq_result (x : Seq) : (setSeq s k x).result = s.result := rfl
@[simp] theorem setSeq_regs (x : Seq) : (setSeq s k x).regs = s.regs := rfl
@[simp] theorem setSeq_staged (x : Seq) : (setSeq s k x).staged = s.staged := rfl
@[simp] theorem setSeq_tiles (x : Seq) : (setSeq s k x).tiles = s.tiles := rfl
@[simp] theorem setSeq_ctxs (x : Seq) : (setSeq s k x).ctxs = s.ctxs := rfl
@[simp] theorem setSeq_engs (x : Seq) : (setSeq s k x).engs = s.engs := rfl
@[simp] theorem setSeq_srcs (x : Seq) : (setSeq s k x).srcs = s.srcs := rfl
@[simp] theorem setSeq_ports (x : Seq) : (setSeq s k x).ports = s.ports := rfl
@[simp] theorem setSeq_flows (x : Seq) : (setSeq s k x).flows = s.flows := rfl
@[simp] theorem setSeq_txqs (x : Seq) : (setSeq s k x).txqs = s.txqs := rfl
@[simp] theorem setSeq_pairs (x : Seq) : (setSeq s k x).pairs = s.pairs := rfl
@[simp] theorem setSeq_tmrs (x : Seq) : (setSeq s k x).tmrs = s.tmrs := rfl
@[simp] theorem setSeq_pwms (x : Seq) : (setSeq s k x).pwms = s.pwms := rfl
@[simp] theorem setSeq_mbxs (x : Seq) : (setSeq s k x).mbxs = s.mbxs := rfl
@[simp] theorem setSeq_locks (x : Seq) : (setSeq s k x).locks = s.locks := rfl
@[simp] theorem setSeq_pmcs (x : Seq) : (setSeq s k x).pmcs = s.pmcs := rfl
@[simp] theorem setSeq_smps (x : Seq) : (setSeq s k x).smps = s.smps := rfl
@[simp] theorem setSeq_links (x : Seq) : (setSeq s k x).links = s.links := rfl
@[simp] theorem setSeq_mem (x : Seq) : (setSeq s k x).mem = s.mem := rfl
@[simp] theorem setSeq_code (x : Seq) : (setSeq s k x).code = s.code := rfl
@[simp] theorem setSeq_flash (x : Seq) : (setSeq s k x).flash = s.flash := rfl
@[simp] theorem setSeq_codeTag (x : Seq) : (setSeq s k x).codeTag = s.codeTag := rfl
@[simp] theorem setSeq_wstore (x : Seq) : (setSeq s k x).wstore = s.wstore := rfl
@[simp] theorem setSeq_dec (x : Seq) : (setSeq s k x).dec = s.dec := rfl
@[simp] theorem setSeq_mirror (x : Seq) : (setSeq s k x).mirror = s.mirror := rfl
@[simp] theorem setSeq_badBlk (x : Seq) : (setSeq s k x).badBlk = s.badBlk := rfl
@[simp] theorem setSeq_hdr (x : Seq) : (setSeq s k x).hdr = s.hdr := rfl
@[simp] theorem setSeq_fns (x : Seq) : (setSeq s k x).fns = s.fns := rfl
@[simp] theorem setSeq_nvm (x : Seq) : (setSeq s k x).nvm = s.nvm := rfl
@[simp] theorem setSeq_sec (x : Seq) : (setSeq s k x).sec = s.sec := rfl
@[simp] theorem setSeq_hp (x : Seq) : (setSeq s k x).hp = s.hp := rfl
@[simp] theorem setSeq_dbg (x : Seq) : (setSeq s k x).dbg = s.dbg := rfl
@[simp] theorem setSeq_getTile (x : Seq) : getTile (setSeq s k x) j = getTile s j := rfl
@[simp] theorem setSeq_getCtx (x : Seq) : getCtx (setSeq s k x) j = getCtx s j := rfl
@[simp] theorem setSeq_getEng (x : Seq) : getEng (setSeq s k x) j = getEng s j := rfl
@[simp] theorem setSeq_getSrc (x : Seq) : getSrc (setSeq s k x) j = getSrc s j := rfl
@[simp] theorem setSeq_getPort (x : Seq) : getPort (setSeq s k x) j = getPort s j := rfl
@[simp] theorem setSeq_getFlow (x : Seq) : getFlow (setSeq s k x) j = getFlow s j := rfl
@[simp] theorem setSeq_getTxQ (x : Seq) : getTxQ (setSeq s k x) j = getTxQ s j := rfl
@[simp] theorem setSeq_getPair (x : Seq) : getPair (setSeq s k x) j = getPair s j := rfl
@[simp] theorem setSeq_getSeq (x : Seq) : getSeq (setSeq s k x) j = if j = k then x else getSeq s j := by
  simp [getSeq, setSeq, sget_sput]
@[simp] theorem setSeq_getTmr (x : Seq) : getTmr (setSeq s k x) j = getTmr s j := rfl
@[simp] theorem setSeq_getPwm (x : Seq) : getPwm (setSeq s k x) j = getPwm s j := rfl
@[simp] theorem setSeq_getMbx (x : Seq) : getMbx (setSeq s k x) j = getMbx s j := rfl
@[simp] theorem setSeq_getPmc (x : Seq) : getPmc (setSeq s k x) j = getPmc s j := rfl
@[simp] theorem setSeq_getSmp (x : Seq) : getSmp (setSeq s k x) j = getSmp s j := rfl
@[simp] theorem setSeq_getLink (x : Seq) : getLink (setSeq s k x) j = getLink s j := rfl
@[simp] theorem setSeq_getCodeTag (x : Seq) : getCodeTag (setSeq s k x) j = getCodeTag s j := rfl
@[simp] theorem setSeq_getUWord (x : Seq) : getUWord (setSeq s k x) j = getUWord s j := rfl
@[simp] theorem setSeq_getDec (x : Seq) : getDec (setSeq s k x) j = getDec s j := rfl
@[simp] theorem setSeq_getMirror (x : Seq) : getMirror (setSeq s k x) j = getMirror s j := rfl
@[simp] theorem setSeq_getFn (x : Seq) : getFn (setSeq s k x) j = getFn s j := rfl
@[simp] theorem setSeq_rg (x : Seq) : rg (setSeq s k x) j = rg s j := rfl
@[simp] theorem setSeq_sg (x : Seq) : sg (setSeq s k x) j = sg s j := rfl
@[simp] theorem setSeq_getLock (x : Seq) : getLock (setSeq s k x) j = getLock s j := rfl

/-! ## `setTmr` -/

@[simp] theorem setTmr_pending (x : Tmr) : (setTmr s k x).pending = s.pending := rfl
@[simp] theorem setTmr_nTiles (x : Tmr) : (setTmr s k x).nTiles = s.nTiles := rfl
@[simp] theorem setTmr_begun (x : Tmr) : (setTmr s k x).begun = s.begun := rfl
@[simp] theorem setTmr_kpTest (x : Tmr) : (setTmr s k x).kpTest = s.kpTest := rfl
@[simp] theorem setTmr_fresh (x : Tmr) : (setTmr s k x).fresh = s.fresh := rfl
@[simp] theorem setTmr_result (x : Tmr) : (setTmr s k x).result = s.result := rfl
@[simp] theorem setTmr_regs (x : Tmr) : (setTmr s k x).regs = s.regs := rfl
@[simp] theorem setTmr_staged (x : Tmr) : (setTmr s k x).staged = s.staged := rfl
@[simp] theorem setTmr_tiles (x : Tmr) : (setTmr s k x).tiles = s.tiles := rfl
@[simp] theorem setTmr_ctxs (x : Tmr) : (setTmr s k x).ctxs = s.ctxs := rfl
@[simp] theorem setTmr_engs (x : Tmr) : (setTmr s k x).engs = s.engs := rfl
@[simp] theorem setTmr_srcs (x : Tmr) : (setTmr s k x).srcs = s.srcs := rfl
@[simp] theorem setTmr_ports (x : Tmr) : (setTmr s k x).ports = s.ports := rfl
@[simp] theorem setTmr_flows (x : Tmr) : (setTmr s k x).flows = s.flows := rfl
@[simp] theorem setTmr_txqs (x : Tmr) : (setTmr s k x).txqs = s.txqs := rfl
@[simp] theorem setTmr_pairs (x : Tmr) : (setTmr s k x).pairs = s.pairs := rfl
@[simp] theorem setTmr_seqs (x : Tmr) : (setTmr s k x).seqs = s.seqs := rfl
@[simp] theorem setTmr_pwms (x : Tmr) : (setTmr s k x).pwms = s.pwms := rfl
@[simp] theorem setTmr_mbxs (x : Tmr) : (setTmr s k x).mbxs = s.mbxs := rfl
@[simp] theorem setTmr_locks (x : Tmr) : (setTmr s k x).locks = s.locks := rfl
@[simp] theorem setTmr_pmcs (x : Tmr) : (setTmr s k x).pmcs = s.pmcs := rfl
@[simp] theorem setTmr_smps (x : Tmr) : (setTmr s k x).smps = s.smps := rfl
@[simp] theorem setTmr_links (x : Tmr) : (setTmr s k x).links = s.links := rfl
@[simp] theorem setTmr_mem (x : Tmr) : (setTmr s k x).mem = s.mem := rfl
@[simp] theorem setTmr_code (x : Tmr) : (setTmr s k x).code = s.code := rfl
@[simp] theorem setTmr_flash (x : Tmr) : (setTmr s k x).flash = s.flash := rfl
@[simp] theorem setTmr_codeTag (x : Tmr) : (setTmr s k x).codeTag = s.codeTag := rfl
@[simp] theorem setTmr_wstore (x : Tmr) : (setTmr s k x).wstore = s.wstore := rfl
@[simp] theorem setTmr_dec (x : Tmr) : (setTmr s k x).dec = s.dec := rfl
@[simp] theorem setTmr_mirror (x : Tmr) : (setTmr s k x).mirror = s.mirror := rfl
@[simp] theorem setTmr_badBlk (x : Tmr) : (setTmr s k x).badBlk = s.badBlk := rfl
@[simp] theorem setTmr_hdr (x : Tmr) : (setTmr s k x).hdr = s.hdr := rfl
@[simp] theorem setTmr_fns (x : Tmr) : (setTmr s k x).fns = s.fns := rfl
@[simp] theorem setTmr_nvm (x : Tmr) : (setTmr s k x).nvm = s.nvm := rfl
@[simp] theorem setTmr_sec (x : Tmr) : (setTmr s k x).sec = s.sec := rfl
@[simp] theorem setTmr_hp (x : Tmr) : (setTmr s k x).hp = s.hp := rfl
@[simp] theorem setTmr_dbg (x : Tmr) : (setTmr s k x).dbg = s.dbg := rfl
@[simp] theorem setTmr_getTile (x : Tmr) : getTile (setTmr s k x) j = getTile s j := rfl
@[simp] theorem setTmr_getCtx (x : Tmr) : getCtx (setTmr s k x) j = getCtx s j := rfl
@[simp] theorem setTmr_getEng (x : Tmr) : getEng (setTmr s k x) j = getEng s j := rfl
@[simp] theorem setTmr_getSrc (x : Tmr) : getSrc (setTmr s k x) j = getSrc s j := rfl
@[simp] theorem setTmr_getPort (x : Tmr) : getPort (setTmr s k x) j = getPort s j := rfl
@[simp] theorem setTmr_getFlow (x : Tmr) : getFlow (setTmr s k x) j = getFlow s j := rfl
@[simp] theorem setTmr_getTxQ (x : Tmr) : getTxQ (setTmr s k x) j = getTxQ s j := rfl
@[simp] theorem setTmr_getPair (x : Tmr) : getPair (setTmr s k x) j = getPair s j := rfl
@[simp] theorem setTmr_getSeq (x : Tmr) : getSeq (setTmr s k x) j = getSeq s j := rfl
@[simp] theorem setTmr_getTmr (x : Tmr) : getTmr (setTmr s k x) j = if j = k then x else getTmr s j := by
  simp [getTmr, setTmr, sget_sput]
@[simp] theorem setTmr_getPwm (x : Tmr) : getPwm (setTmr s k x) j = getPwm s j := rfl
@[simp] theorem setTmr_getMbx (x : Tmr) : getMbx (setTmr s k x) j = getMbx s j := rfl
@[simp] theorem setTmr_getPmc (x : Tmr) : getPmc (setTmr s k x) j = getPmc s j := rfl
@[simp] theorem setTmr_getSmp (x : Tmr) : getSmp (setTmr s k x) j = getSmp s j := rfl
@[simp] theorem setTmr_getLink (x : Tmr) : getLink (setTmr s k x) j = getLink s j := rfl
@[simp] theorem setTmr_getCodeTag (x : Tmr) : getCodeTag (setTmr s k x) j = getCodeTag s j := rfl
@[simp] theorem setTmr_getUWord (x : Tmr) : getUWord (setTmr s k x) j = getUWord s j := rfl
@[simp] theorem setTmr_getDec (x : Tmr) : getDec (setTmr s k x) j = getDec s j := rfl
@[simp] theorem setTmr_getMirror (x : Tmr) : getMirror (setTmr s k x) j = getMirror s j := rfl
@[simp] theorem setTmr_getFn (x : Tmr) : getFn (setTmr s k x) j = getFn s j := rfl
@[simp] theorem setTmr_rg (x : Tmr) : rg (setTmr s k x) j = rg s j := rfl
@[simp] theorem setTmr_sg (x : Tmr) : sg (setTmr s k x) j = sg s j := rfl
@[simp] theorem setTmr_getLock (x : Tmr) : getLock (setTmr s k x) j = getLock s j := rfl

/-! ## `setPwm` -/

@[simp] theorem setPwm_pending (x : Pwm) : (setPwm s k x).pending = s.pending := rfl
@[simp] theorem setPwm_nTiles (x : Pwm) : (setPwm s k x).nTiles = s.nTiles := rfl
@[simp] theorem setPwm_begun (x : Pwm) : (setPwm s k x).begun = s.begun := rfl
@[simp] theorem setPwm_kpTest (x : Pwm) : (setPwm s k x).kpTest = s.kpTest := rfl
@[simp] theorem setPwm_fresh (x : Pwm) : (setPwm s k x).fresh = s.fresh := rfl
@[simp] theorem setPwm_result (x : Pwm) : (setPwm s k x).result = s.result := rfl
@[simp] theorem setPwm_regs (x : Pwm) : (setPwm s k x).regs = s.regs := rfl
@[simp] theorem setPwm_staged (x : Pwm) : (setPwm s k x).staged = s.staged := rfl
@[simp] theorem setPwm_tiles (x : Pwm) : (setPwm s k x).tiles = s.tiles := rfl
@[simp] theorem setPwm_ctxs (x : Pwm) : (setPwm s k x).ctxs = s.ctxs := rfl
@[simp] theorem setPwm_engs (x : Pwm) : (setPwm s k x).engs = s.engs := rfl
@[simp] theorem setPwm_srcs (x : Pwm) : (setPwm s k x).srcs = s.srcs := rfl
@[simp] theorem setPwm_ports (x : Pwm) : (setPwm s k x).ports = s.ports := rfl
@[simp] theorem setPwm_flows (x : Pwm) : (setPwm s k x).flows = s.flows := rfl
@[simp] theorem setPwm_txqs (x : Pwm) : (setPwm s k x).txqs = s.txqs := rfl
@[simp] theorem setPwm_pairs (x : Pwm) : (setPwm s k x).pairs = s.pairs := rfl
@[simp] theorem setPwm_seqs (x : Pwm) : (setPwm s k x).seqs = s.seqs := rfl
@[simp] theorem setPwm_tmrs (x : Pwm) : (setPwm s k x).tmrs = s.tmrs := rfl
@[simp] theorem setPwm_mbxs (x : Pwm) : (setPwm s k x).mbxs = s.mbxs := rfl
@[simp] theorem setPwm_locks (x : Pwm) : (setPwm s k x).locks = s.locks := rfl
@[simp] theorem setPwm_pmcs (x : Pwm) : (setPwm s k x).pmcs = s.pmcs := rfl
@[simp] theorem setPwm_smps (x : Pwm) : (setPwm s k x).smps = s.smps := rfl
@[simp] theorem setPwm_links (x : Pwm) : (setPwm s k x).links = s.links := rfl
@[simp] theorem setPwm_mem (x : Pwm) : (setPwm s k x).mem = s.mem := rfl
@[simp] theorem setPwm_code (x : Pwm) : (setPwm s k x).code = s.code := rfl
@[simp] theorem setPwm_flash (x : Pwm) : (setPwm s k x).flash = s.flash := rfl
@[simp] theorem setPwm_codeTag (x : Pwm) : (setPwm s k x).codeTag = s.codeTag := rfl
@[simp] theorem setPwm_wstore (x : Pwm) : (setPwm s k x).wstore = s.wstore := rfl
@[simp] theorem setPwm_dec (x : Pwm) : (setPwm s k x).dec = s.dec := rfl
@[simp] theorem setPwm_mirror (x : Pwm) : (setPwm s k x).mirror = s.mirror := rfl
@[simp] theorem setPwm_badBlk (x : Pwm) : (setPwm s k x).badBlk = s.badBlk := rfl
@[simp] theorem setPwm_hdr (x : Pwm) : (setPwm s k x).hdr = s.hdr := rfl
@[simp] theorem setPwm_fns (x : Pwm) : (setPwm s k x).fns = s.fns := rfl
@[simp] theorem setPwm_nvm (x : Pwm) : (setPwm s k x).nvm = s.nvm := rfl
@[simp] theorem setPwm_sec (x : Pwm) : (setPwm s k x).sec = s.sec := rfl
@[simp] theorem setPwm_hp (x : Pwm) : (setPwm s k x).hp = s.hp := rfl
@[simp] theorem setPwm_dbg (x : Pwm) : (setPwm s k x).dbg = s.dbg := rfl
@[simp] theorem setPwm_getTile (x : Pwm) : getTile (setPwm s k x) j = getTile s j := rfl
@[simp] theorem setPwm_getCtx (x : Pwm) : getCtx (setPwm s k x) j = getCtx s j := rfl
@[simp] theorem setPwm_getEng (x : Pwm) : getEng (setPwm s k x) j = getEng s j := rfl
@[simp] theorem setPwm_getSrc (x : Pwm) : getSrc (setPwm s k x) j = getSrc s j := rfl
@[simp] theorem setPwm_getPort (x : Pwm) : getPort (setPwm s k x) j = getPort s j := rfl
@[simp] theorem setPwm_getFlow (x : Pwm) : getFlow (setPwm s k x) j = getFlow s j := rfl
@[simp] theorem setPwm_getTxQ (x : Pwm) : getTxQ (setPwm s k x) j = getTxQ s j := rfl
@[simp] theorem setPwm_getPair (x : Pwm) : getPair (setPwm s k x) j = getPair s j := rfl
@[simp] theorem setPwm_getSeq (x : Pwm) : getSeq (setPwm s k x) j = getSeq s j := rfl
@[simp] theorem setPwm_getTmr (x : Pwm) : getTmr (setPwm s k x) j = getTmr s j := rfl
@[simp] theorem setPwm_getPwm (x : Pwm) : getPwm (setPwm s k x) j = if j = k then x else getPwm s j := by
  simp [getPwm, setPwm, sget_sput]
@[simp] theorem setPwm_getMbx (x : Pwm) : getMbx (setPwm s k x) j = getMbx s j := rfl
@[simp] theorem setPwm_getPmc (x : Pwm) : getPmc (setPwm s k x) j = getPmc s j := rfl
@[simp] theorem setPwm_getSmp (x : Pwm) : getSmp (setPwm s k x) j = getSmp s j := rfl
@[simp] theorem setPwm_getLink (x : Pwm) : getLink (setPwm s k x) j = getLink s j := rfl
@[simp] theorem setPwm_getCodeTag (x : Pwm) : getCodeTag (setPwm s k x) j = getCodeTag s j := rfl
@[simp] theorem setPwm_getUWord (x : Pwm) : getUWord (setPwm s k x) j = getUWord s j := rfl
@[simp] theorem setPwm_getDec (x : Pwm) : getDec (setPwm s k x) j = getDec s j := rfl
@[simp] theorem setPwm_getMirror (x : Pwm) : getMirror (setPwm s k x) j = getMirror s j := rfl
@[simp] theorem setPwm_getFn (x : Pwm) : getFn (setPwm s k x) j = getFn s j := rfl
@[simp] theorem setPwm_rg (x : Pwm) : rg (setPwm s k x) j = rg s j := rfl
@[simp] theorem setPwm_sg (x : Pwm) : sg (setPwm s k x) j = sg s j := rfl
@[simp] theorem setPwm_getLock (x : Pwm) : getLock (setPwm s k x) j = getLock s j := rfl

/-! ## `setMbx` -/

@[simp] theorem setMbx_pending (x : Mbx) : (setMbx s k x).pending = s.pending := rfl
@[simp] theorem setMbx_nTiles (x : Mbx) : (setMbx s k x).nTiles = s.nTiles := rfl
@[simp] theorem setMbx_begun (x : Mbx) : (setMbx s k x).begun = s.begun := rfl
@[simp] theorem setMbx_kpTest (x : Mbx) : (setMbx s k x).kpTest = s.kpTest := rfl
@[simp] theorem setMbx_fresh (x : Mbx) : (setMbx s k x).fresh = s.fresh := rfl
@[simp] theorem setMbx_result (x : Mbx) : (setMbx s k x).result = s.result := rfl
@[simp] theorem setMbx_regs (x : Mbx) : (setMbx s k x).regs = s.regs := rfl
@[simp] theorem setMbx_staged (x : Mbx) : (setMbx s k x).staged = s.staged := rfl
@[simp] theorem setMbx_tiles (x : Mbx) : (setMbx s k x).tiles = s.tiles := rfl
@[simp] theorem setMbx_ctxs (x : Mbx) : (setMbx s k x).ctxs = s.ctxs := rfl
@[simp] theorem setMbx_engs (x : Mbx) : (setMbx s k x).engs = s.engs := rfl
@[simp] theorem setMbx_srcs (x : Mbx) : (setMbx s k x).srcs = s.srcs := rfl
@[simp] theorem setMbx_ports (x : Mbx) : (setMbx s k x).ports = s.ports := rfl
@[simp] theorem setMbx_flows (x : Mbx) : (setMbx s k x).flows = s.flows := rfl
@[simp] theorem setMbx_txqs (x : Mbx) : (setMbx s k x).txqs = s.txqs := rfl
@[simp] theorem setMbx_pairs (x : Mbx) : (setMbx s k x).pairs = s.pairs := rfl
@[simp] theorem setMbx_seqs (x : Mbx) : (setMbx s k x).seqs = s.seqs := rfl
@[simp] theorem setMbx_tmrs (x : Mbx) : (setMbx s k x).tmrs = s.tmrs := rfl
@[simp] theorem setMbx_pwms (x : Mbx) : (setMbx s k x).pwms = s.pwms := rfl
@[simp] theorem setMbx_locks (x : Mbx) : (setMbx s k x).locks = s.locks := rfl
@[simp] theorem setMbx_pmcs (x : Mbx) : (setMbx s k x).pmcs = s.pmcs := rfl
@[simp] theorem setMbx_smps (x : Mbx) : (setMbx s k x).smps = s.smps := rfl
@[simp] theorem setMbx_links (x : Mbx) : (setMbx s k x).links = s.links := rfl
@[simp] theorem setMbx_mem (x : Mbx) : (setMbx s k x).mem = s.mem := rfl
@[simp] theorem setMbx_code (x : Mbx) : (setMbx s k x).code = s.code := rfl
@[simp] theorem setMbx_flash (x : Mbx) : (setMbx s k x).flash = s.flash := rfl
@[simp] theorem setMbx_codeTag (x : Mbx) : (setMbx s k x).codeTag = s.codeTag := rfl
@[simp] theorem setMbx_wstore (x : Mbx) : (setMbx s k x).wstore = s.wstore := rfl
@[simp] theorem setMbx_dec (x : Mbx) : (setMbx s k x).dec = s.dec := rfl
@[simp] theorem setMbx_mirror (x : Mbx) : (setMbx s k x).mirror = s.mirror := rfl
@[simp] theorem setMbx_badBlk (x : Mbx) : (setMbx s k x).badBlk = s.badBlk := rfl
@[simp] theorem setMbx_hdr (x : Mbx) : (setMbx s k x).hdr = s.hdr := rfl
@[simp] theorem setMbx_fns (x : Mbx) : (setMbx s k x).fns = s.fns := rfl
@[simp] theorem setMbx_nvm (x : Mbx) : (setMbx s k x).nvm = s.nvm := rfl
@[simp] theorem setMbx_sec (x : Mbx) : (setMbx s k x).sec = s.sec := rfl
@[simp] theorem setMbx_hp (x : Mbx) : (setMbx s k x).hp = s.hp := rfl
@[simp] theorem setMbx_dbg (x : Mbx) : (setMbx s k x).dbg = s.dbg := rfl
@[simp] theorem setMbx_getTile (x : Mbx) : getTile (setMbx s k x) j = getTile s j := rfl
@[simp] theorem setMbx_getCtx (x : Mbx) : getCtx (setMbx s k x) j = getCtx s j := rfl
@[simp] theorem setMbx_getEng (x : Mbx) : getEng (setMbx s k x) j = getEng s j := rfl
@[simp] theorem setMbx_getSrc (x : Mbx) : getSrc (setMbx s k x) j = getSrc s j := rfl
@[simp] theorem setMbx_getPort (x : Mbx) : getPort (setMbx s k x) j = getPort s j := rfl
@[simp] theorem setMbx_getFlow (x : Mbx) : getFlow (setMbx s k x) j = getFlow s j := rfl
@[simp] theorem setMbx_getTxQ (x : Mbx) : getTxQ (setMbx s k x) j = getTxQ s j := rfl
@[simp] theorem setMbx_getPair (x : Mbx) : getPair (setMbx s k x) j = getPair s j := rfl
@[simp] theorem setMbx_getSeq (x : Mbx) : getSeq (setMbx s k x) j = getSeq s j := rfl
@[simp] theorem setMbx_getTmr (x : Mbx) : getTmr (setMbx s k x) j = getTmr s j := rfl
@[simp] theorem setMbx_getPwm (x : Mbx) : getPwm (setMbx s k x) j = getPwm s j := rfl
@[simp] theorem setMbx_getMbx (x : Mbx) : getMbx (setMbx s k x) j = if j = k then x else getMbx s j := by
  simp [getMbx, setMbx, sget_sput]
@[simp] theorem setMbx_getPmc (x : Mbx) : getPmc (setMbx s k x) j = getPmc s j := rfl
@[simp] theorem setMbx_getSmp (x : Mbx) : getSmp (setMbx s k x) j = getSmp s j := rfl
@[simp] theorem setMbx_getLink (x : Mbx) : getLink (setMbx s k x) j = getLink s j := rfl
@[simp] theorem setMbx_getCodeTag (x : Mbx) : getCodeTag (setMbx s k x) j = getCodeTag s j := rfl
@[simp] theorem setMbx_getUWord (x : Mbx) : getUWord (setMbx s k x) j = getUWord s j := rfl
@[simp] theorem setMbx_getDec (x : Mbx) : getDec (setMbx s k x) j = getDec s j := rfl
@[simp] theorem setMbx_getMirror (x : Mbx) : getMirror (setMbx s k x) j = getMirror s j := rfl
@[simp] theorem setMbx_getFn (x : Mbx) : getFn (setMbx s k x) j = getFn s j := rfl
@[simp] theorem setMbx_rg (x : Mbx) : rg (setMbx s k x) j = rg s j := rfl
@[simp] theorem setMbx_sg (x : Mbx) : sg (setMbx s k x) j = sg s j := rfl
@[simp] theorem setMbx_getLock (x : Mbx) : getLock (setMbx s k x) j = getLock s j := rfl

/-! ## `setPmc` -/

@[simp] theorem setPmc_pending (x : Pmc) : (setPmc s k x).pending = s.pending := rfl
@[simp] theorem setPmc_nTiles (x : Pmc) : (setPmc s k x).nTiles = s.nTiles := rfl
@[simp] theorem setPmc_begun (x : Pmc) : (setPmc s k x).begun = s.begun := rfl
@[simp] theorem setPmc_kpTest (x : Pmc) : (setPmc s k x).kpTest = s.kpTest := rfl
@[simp] theorem setPmc_fresh (x : Pmc) : (setPmc s k x).fresh = s.fresh := rfl
@[simp] theorem setPmc_result (x : Pmc) : (setPmc s k x).result = s.result := rfl
@[simp] theorem setPmc_regs (x : Pmc) : (setPmc s k x).regs = s.regs := rfl
@[simp] theorem setPmc_staged (x : Pmc) : (setPmc s k x).staged = s.staged := rfl
@[simp] theorem setPmc_tiles (x : Pmc) : (setPmc s k x).tiles = s.tiles := rfl
@[simp] theorem setPmc_ctxs (x : Pmc) : (setPmc s k x).ctxs = s.ctxs := rfl
@[simp] theorem setPmc_engs (x : Pmc) : (setPmc s k x).engs = s.engs := rfl
@[simp] theorem setPmc_srcs (x : Pmc) : (setPmc s k x).srcs = s.srcs := rfl
@[simp] theorem setPmc_ports (x : Pmc) : (setPmc s k x).ports = s.ports := rfl
@[simp] theorem setPmc_flows (x : Pmc) : (setPmc s k x).flows = s.flows := rfl
@[simp] theorem setPmc_txqs (x : Pmc) : (setPmc s k x).txqs = s.txqs := rfl
@[simp] theorem setPmc_pairs (x : Pmc) : (setPmc s k x).pairs = s.pairs := rfl
@[simp] theorem setPmc_seqs (x : Pmc) : (setPmc s k x).seqs = s.seqs := rfl
@[simp] theorem setPmc_tmrs (x : Pmc) : (setPmc s k x).tmrs = s.tmrs := rfl
@[simp] theorem setPmc_pwms (x : Pmc) : (setPmc s k x).pwms = s.pwms := rfl
@[simp] theorem setPmc_mbxs (x : Pmc) : (setPmc s k x).mbxs = s.mbxs := rfl
@[simp] theorem setPmc_locks (x : Pmc) : (setPmc s k x).locks = s.locks := rfl
@[simp] theorem setPmc_smps (x : Pmc) : (setPmc s k x).smps = s.smps := rfl
@[simp] theorem setPmc_links (x : Pmc) : (setPmc s k x).links = s.links := rfl
@[simp] theorem setPmc_mem (x : Pmc) : (setPmc s k x).mem = s.mem := rfl
@[simp] theorem setPmc_code (x : Pmc) : (setPmc s k x).code = s.code := rfl
@[simp] theorem setPmc_flash (x : Pmc) : (setPmc s k x).flash = s.flash := rfl
@[simp] theorem setPmc_codeTag (x : Pmc) : (setPmc s k x).codeTag = s.codeTag := rfl
@[simp] theorem setPmc_wstore (x : Pmc) : (setPmc s k x).wstore = s.wstore := rfl
@[simp] theorem setPmc_dec (x : Pmc) : (setPmc s k x).dec = s.dec := rfl
@[simp] theorem setPmc_mirror (x : Pmc) : (setPmc s k x).mirror = s.mirror := rfl
@[simp] theorem setPmc_badBlk (x : Pmc) : (setPmc s k x).badBlk = s.badBlk := rfl
@[simp] theorem setPmc_hdr (x : Pmc) : (setPmc s k x).hdr = s.hdr := rfl
@[simp] theorem setPmc_fns (x : Pmc) : (setPmc s k x).fns = s.fns := rfl
@[simp] theorem setPmc_nvm (x : Pmc) : (setPmc s k x).nvm = s.nvm := rfl
@[simp] theorem setPmc_sec (x : Pmc) : (setPmc s k x).sec = s.sec := rfl
@[simp] theorem setPmc_hp (x : Pmc) : (setPmc s k x).hp = s.hp := rfl
@[simp] theorem setPmc_dbg (x : Pmc) : (setPmc s k x).dbg = s.dbg := rfl
@[simp] theorem setPmc_getTile (x : Pmc) : getTile (setPmc s k x) j = getTile s j := rfl
@[simp] theorem setPmc_getCtx (x : Pmc) : getCtx (setPmc s k x) j = getCtx s j := rfl
@[simp] theorem setPmc_getEng (x : Pmc) : getEng (setPmc s k x) j = getEng s j := rfl
@[simp] theorem setPmc_getSrc (x : Pmc) : getSrc (setPmc s k x) j = getSrc s j := rfl
@[simp] theorem setPmc_getPort (x : Pmc) : getPort (setPmc s k x) j = getPort s j := rfl
@[simp] theorem setPmc_getFlow (x : Pmc) : getFlow (setPmc s k x) j = getFlow s j := rfl
@[simp] theorem setPmc_getTxQ (x : Pmc) : getTxQ (setPmc s k x) j = getTxQ s j := rfl
@[simp] theorem setPmc_getPair (x : Pmc) : getPair (setPmc s k x) j = getPair s j := rfl
@[simp] theorem setPmc_getSeq (x : Pmc) : getSeq (setPmc s k x) j = getSeq s j := rfl
@[simp] theorem setPmc_getTmr (x : Pmc) : getTmr (setPmc s k x) j = getTmr s j := rfl
@[simp] theorem setPmc_getPwm (x : Pmc) : getPwm (setPmc s k x) j = getPwm s j := rfl
@[simp] theorem setPmc_getMbx (x : Pmc) : getMbx (setPmc s k x) j = getMbx s j := rfl
@[simp] theorem setPmc_getPmc (x : Pmc) : getPmc (setPmc s k x) j = if j = k then x else getPmc s j := by
  simp [getPmc, setPmc, sget_sput]
@[simp] theorem setPmc_getSmp (x : Pmc) : getSmp (setPmc s k x) j = getSmp s j := rfl
@[simp] theorem setPmc_getLink (x : Pmc) : getLink (setPmc s k x) j = getLink s j := rfl
@[simp] theorem setPmc_getCodeTag (x : Pmc) : getCodeTag (setPmc s k x) j = getCodeTag s j := rfl
@[simp] theorem setPmc_getUWord (x : Pmc) : getUWord (setPmc s k x) j = getUWord s j := rfl
@[simp] theorem setPmc_getDec (x : Pmc) : getDec (setPmc s k x) j = getDec s j := rfl
@[simp] theorem setPmc_getMirror (x : Pmc) : getMirror (setPmc s k x) j = getMirror s j := rfl
@[simp] theorem setPmc_getFn (x : Pmc) : getFn (setPmc s k x) j = getFn s j := rfl
@[simp] theorem setPmc_rg (x : Pmc) : rg (setPmc s k x) j = rg s j := rfl
@[simp] theorem setPmc_sg (x : Pmc) : sg (setPmc s k x) j = sg s j := rfl
@[simp] theorem setPmc_getLock (x : Pmc) : getLock (setPmc s k x) j = getLock s j := rfl

/-! ## `setSmp` -/

@[simp] theorem setSmp_pending (x : Smp) : (setSmp s k x).pending = s.pending := rfl
@[simp] theorem setSmp_nTiles (x : Smp) : (setSmp s k x).nTiles = s.nTiles := rfl
@[simp] theorem setSmp_begun (x : Smp) : (setSmp s k x).begun = s.begun := rfl
@[simp] theorem setSmp_kpTest (x : Smp) : (setSmp s k x).kpTest = s.kpTest := rfl
@[simp] theorem setSmp_fresh (x : Smp) : (setSmp s k x).fresh = s.fresh := rfl
@[simp] theorem setSmp_result (x : Smp) : (setSmp s k x).result = s.result := rfl
@[simp] theorem setSmp_regs (x : Smp) : (setSmp s k x).regs = s.regs := rfl
@[simp] theorem setSmp_staged (x : Smp) : (setSmp s k x).staged = s.staged := rfl
@[simp] theorem setSmp_tiles (x : Smp) : (setSmp s k x).tiles = s.tiles := rfl
@[simp] theorem setSmp_ctxs (x : Smp) : (setSmp s k x).ctxs = s.ctxs := rfl
@[simp] theorem setSmp_engs (x : Smp) : (setSmp s k x).engs = s.engs := rfl
@[simp] theorem setSmp_srcs (x : Smp) : (setSmp s k x).srcs = s.srcs := rfl
@[simp] theorem setSmp_ports (x : Smp) : (setSmp s k x).ports = s.ports := rfl
@[simp] theorem setSmp_flows (x : Smp) : (setSmp s k x).flows = s.flows := rfl
@[simp] theorem setSmp_txqs (x : Smp) : (setSmp s k x).txqs = s.txqs := rfl
@[simp] theorem setSmp_pairs (x : Smp) : (setSmp s k x).pairs = s.pairs := rfl
@[simp] theorem setSmp_seqs (x : Smp) : (setSmp s k x).seqs = s.seqs := rfl
@[simp] theorem setSmp_tmrs (x : Smp) : (setSmp s k x).tmrs = s.tmrs := rfl
@[simp] theorem setSmp_pwms (x : Smp) : (setSmp s k x).pwms = s.pwms := rfl
@[simp] theorem setSmp_mbxs (x : Smp) : (setSmp s k x).mbxs = s.mbxs := rfl
@[simp] theorem setSmp_locks (x : Smp) : (setSmp s k x).locks = s.locks := rfl
@[simp] theorem setSmp_pmcs (x : Smp) : (setSmp s k x).pmcs = s.pmcs := rfl
@[simp] theorem setSmp_links (x : Smp) : (setSmp s k x).links = s.links := rfl
@[simp] theorem setSmp_mem (x : Smp) : (setSmp s k x).mem = s.mem := rfl
@[simp] theorem setSmp_code (x : Smp) : (setSmp s k x).code = s.code := rfl
@[simp] theorem setSmp_flash (x : Smp) : (setSmp s k x).flash = s.flash := rfl
@[simp] theorem setSmp_codeTag (x : Smp) : (setSmp s k x).codeTag = s.codeTag := rfl
@[simp] theorem setSmp_wstore (x : Smp) : (setSmp s k x).wstore = s.wstore := rfl
@[simp] theorem setSmp_dec (x : Smp) : (setSmp s k x).dec = s.dec := rfl
@[simp] theorem setSmp_mirror (x : Smp) : (setSmp s k x).mirror = s.mirror := rfl
@[simp] theorem setSmp_badBlk (x : Smp) : (setSmp s k x).badBlk = s.badBlk := rfl
@[simp] theorem setSmp_hdr (x : Smp) : (setSmp s k x).hdr = s.hdr := rfl
@[simp] theorem setSmp_fns (x : Smp) : (setSmp s k x).fns = s.fns := rfl
@[simp] theorem setSmp_nvm (x : Smp) : (setSmp s k x).nvm = s.nvm := rfl
@[simp] theorem setSmp_sec (x : Smp) : (setSmp s k x).sec = s.sec := rfl
@[simp] theorem setSmp_hp (x : Smp) : (setSmp s k x).hp = s.hp := rfl
@[simp] theorem setSmp_dbg (x : Smp) : (setSmp s k x).dbg = s.dbg := rfl
@[simp] theorem setSmp_getTile (x : Smp) : getTile (setSmp s k x) j = getTile s j := rfl
@[simp] theorem setSmp_getCtx (x : Smp) : getCtx (setSmp s k x) j = getCtx s j := rfl
@[simp] theorem setSmp_getEng (x : Smp) : getEng (setSmp s k x) j = getEng s j := rfl
@[simp] theorem setSmp_getSrc (x : Smp) : getSrc (setSmp s k x) j = getSrc s j := rfl
@[simp] theorem setSmp_getPort (x : Smp) : getPort (setSmp s k x) j = getPort s j := rfl
@[simp] theorem setSmp_getFlow (x : Smp) : getFlow (setSmp s k x) j = getFlow s j := rfl
@[simp] theorem setSmp_getTxQ (x : Smp) : getTxQ (setSmp s k x) j = getTxQ s j := rfl
@[simp] theorem setSmp_getPair (x : Smp) : getPair (setSmp s k x) j = getPair s j := rfl
@[simp] theorem setSmp_getSeq (x : Smp) : getSeq (setSmp s k x) j = getSeq s j := rfl
@[simp] theorem setSmp_getTmr (x : Smp) : getTmr (setSmp s k x) j = getTmr s j := rfl
@[simp] theorem setSmp_getPwm (x : Smp) : getPwm (setSmp s k x) j = getPwm s j := rfl
@[simp] theorem setSmp_getMbx (x : Smp) : getMbx (setSmp s k x) j = getMbx s j := rfl
@[simp] theorem setSmp_getPmc (x : Smp) : getPmc (setSmp s k x) j = getPmc s j := rfl
@[simp] theorem setSmp_getSmp (x : Smp) : getSmp (setSmp s k x) j = if j = k then x else getSmp s j := by
  simp [getSmp, setSmp, sget_sput]
@[simp] theorem setSmp_getLink (x : Smp) : getLink (setSmp s k x) j = getLink s j := rfl
@[simp] theorem setSmp_getCodeTag (x : Smp) : getCodeTag (setSmp s k x) j = getCodeTag s j := rfl
@[simp] theorem setSmp_getUWord (x : Smp) : getUWord (setSmp s k x) j = getUWord s j := rfl
@[simp] theorem setSmp_getDec (x : Smp) : getDec (setSmp s k x) j = getDec s j := rfl
@[simp] theorem setSmp_getMirror (x : Smp) : getMirror (setSmp s k x) j = getMirror s j := rfl
@[simp] theorem setSmp_getFn (x : Smp) : getFn (setSmp s k x) j = getFn s j := rfl
@[simp] theorem setSmp_rg (x : Smp) : rg (setSmp s k x) j = rg s j := rfl
@[simp] theorem setSmp_sg (x : Smp) : sg (setSmp s k x) j = sg s j := rfl
@[simp] theorem setSmp_getLock (x : Smp) : getLock (setSmp s k x) j = getLock s j := rfl

/-! ## `setLink` -/

@[simp] theorem setLink_pending (x : Link) : (setLink s k x).pending = s.pending := rfl
@[simp] theorem setLink_nTiles (x : Link) : (setLink s k x).nTiles = s.nTiles := rfl
@[simp] theorem setLink_begun (x : Link) : (setLink s k x).begun = s.begun := rfl
@[simp] theorem setLink_kpTest (x : Link) : (setLink s k x).kpTest = s.kpTest := rfl
@[simp] theorem setLink_fresh (x : Link) : (setLink s k x).fresh = s.fresh := rfl
@[simp] theorem setLink_result (x : Link) : (setLink s k x).result = s.result := rfl
@[simp] theorem setLink_regs (x : Link) : (setLink s k x).regs = s.regs := rfl
@[simp] theorem setLink_staged (x : Link) : (setLink s k x).staged = s.staged := rfl
@[simp] theorem setLink_tiles (x : Link) : (setLink s k x).tiles = s.tiles := rfl
@[simp] theorem setLink_ctxs (x : Link) : (setLink s k x).ctxs = s.ctxs := rfl
@[simp] theorem setLink_engs (x : Link) : (setLink s k x).engs = s.engs := rfl
@[simp] theorem setLink_srcs (x : Link) : (setLink s k x).srcs = s.srcs := rfl
@[simp] theorem setLink_ports (x : Link) : (setLink s k x).ports = s.ports := rfl
@[simp] theorem setLink_flows (x : Link) : (setLink s k x).flows = s.flows := rfl
@[simp] theorem setLink_txqs (x : Link) : (setLink s k x).txqs = s.txqs := rfl
@[simp] theorem setLink_pairs (x : Link) : (setLink s k x).pairs = s.pairs := rfl
@[simp] theorem setLink_seqs (x : Link) : (setLink s k x).seqs = s.seqs := rfl
@[simp] theorem setLink_tmrs (x : Link) : (setLink s k x).tmrs = s.tmrs := rfl
@[simp] theorem setLink_pwms (x : Link) : (setLink s k x).pwms = s.pwms := rfl
@[simp] theorem setLink_mbxs (x : Link) : (setLink s k x).mbxs = s.mbxs := rfl
@[simp] theorem setLink_locks (x : Link) : (setLink s k x).locks = s.locks := rfl
@[simp] theorem setLink_pmcs (x : Link) : (setLink s k x).pmcs = s.pmcs := rfl
@[simp] theorem setLink_smps (x : Link) : (setLink s k x).smps = s.smps := rfl
@[simp] theorem setLink_mem (x : Link) : (setLink s k x).mem = s.mem := rfl
@[simp] theorem setLink_code (x : Link) : (setLink s k x).code = s.code := rfl
@[simp] theorem setLink_flash (x : Link) : (setLink s k x).flash = s.flash := rfl
@[simp] theorem setLink_codeTag (x : Link) : (setLink s k x).codeTag = s.codeTag := rfl
@[simp] theorem setLink_wstore (x : Link) : (setLink s k x).wstore = s.wstore := rfl
@[simp] theorem setLink_dec (x : Link) : (setLink s k x).dec = s.dec := rfl
@[simp] theorem setLink_mirror (x : Link) : (setLink s k x).mirror = s.mirror := rfl
@[simp] theorem setLink_badBlk (x : Link) : (setLink s k x).badBlk = s.badBlk := rfl
@[simp] theorem setLink_hdr (x : Link) : (setLink s k x).hdr = s.hdr := rfl
@[simp] theorem setLink_fns (x : Link) : (setLink s k x).fns = s.fns := rfl
@[simp] theorem setLink_nvm (x : Link) : (setLink s k x).nvm = s.nvm := rfl
@[simp] theorem setLink_sec (x : Link) : (setLink s k x).sec = s.sec := rfl
@[simp] theorem setLink_hp (x : Link) : (setLink s k x).hp = s.hp := rfl
@[simp] theorem setLink_dbg (x : Link) : (setLink s k x).dbg = s.dbg := rfl
@[simp] theorem setLink_getTile (x : Link) : getTile (setLink s k x) j = getTile s j := rfl
@[simp] theorem setLink_getCtx (x : Link) : getCtx (setLink s k x) j = getCtx s j := rfl
@[simp] theorem setLink_getEng (x : Link) : getEng (setLink s k x) j = getEng s j := rfl
@[simp] theorem setLink_getSrc (x : Link) : getSrc (setLink s k x) j = getSrc s j := rfl
@[simp] theorem setLink_getPort (x : Link) : getPort (setLink s k x) j = getPort s j := rfl
@[simp] theorem setLink_getFlow (x : Link) : getFlow (setLink s k x) j = getFlow s j := rfl
@[simp] theorem setLink_getTxQ (x : Link) : getTxQ (setLink s k x) j = getTxQ s j := rfl
@[simp] theorem setLink_getPair (x : Link) : getPair (setLink s k x) j = getPair s j := rfl
@[simp] theorem setLink_getSeq (x : Link) : getSeq (setLink s k x) j = getSeq s j := rfl
@[simp] theorem setLink_getTmr (x : Link) : getTmr (setLink s k x) j = getTmr s j := rfl
@[simp] theorem setLink_getPwm (x : Link) : getPwm (setLink s k x) j = getPwm s j := rfl
@[simp] theorem setLink_getMbx (x : Link) : getMbx (setLink s k x) j = getMbx s j := rfl
@[simp] theorem setLink_getPmc (x : Link) : getPmc (setLink s k x) j = getPmc s j := rfl
@[simp] theorem setLink_getSmp (x : Link) : getSmp (setLink s k x) j = getSmp s j := rfl
@[simp] theorem setLink_getLink (x : Link) : getLink (setLink s k x) j = if j = k then x else getLink s j := by
  simp [getLink, setLink, sget_sput]
@[simp] theorem setLink_getCodeTag (x : Link) : getCodeTag (setLink s k x) j = getCodeTag s j := rfl
@[simp] theorem setLink_getUWord (x : Link) : getUWord (setLink s k x) j = getUWord s j := rfl
@[simp] theorem setLink_getDec (x : Link) : getDec (setLink s k x) j = getDec s j := rfl
@[simp] theorem setLink_getMirror (x : Link) : getMirror (setLink s k x) j = getMirror s j := rfl
@[simp] theorem setLink_getFn (x : Link) : getFn (setLink s k x) j = getFn s j := rfl
@[simp] theorem setLink_rg (x : Link) : rg (setLink s k x) j = rg s j := rfl
@[simp] theorem setLink_sg (x : Link) : sg (setLink s k x) j = sg s j := rfl
@[simp] theorem setLink_getLock (x : Link) : getLock (setLink s k x) j = getLock s j := rfl

/-! ## `setCodeTag` -/

@[simp] theorem setCodeTag_pending (x : CodeTag) : (setCodeTag s k x).pending = s.pending := rfl
@[simp] theorem setCodeTag_nTiles (x : CodeTag) : (setCodeTag s k x).nTiles = s.nTiles := rfl
@[simp] theorem setCodeTag_begun (x : CodeTag) : (setCodeTag s k x).begun = s.begun := rfl
@[simp] theorem setCodeTag_kpTest (x : CodeTag) : (setCodeTag s k x).kpTest = s.kpTest := rfl
@[simp] theorem setCodeTag_fresh (x : CodeTag) : (setCodeTag s k x).fresh = s.fresh := rfl
@[simp] theorem setCodeTag_result (x : CodeTag) : (setCodeTag s k x).result = s.result := rfl
@[simp] theorem setCodeTag_regs (x : CodeTag) : (setCodeTag s k x).regs = s.regs := rfl
@[simp] theorem setCodeTag_staged (x : CodeTag) : (setCodeTag s k x).staged = s.staged := rfl
@[simp] theorem setCodeTag_tiles (x : CodeTag) : (setCodeTag s k x).tiles = s.tiles := rfl
@[simp] theorem setCodeTag_ctxs (x : CodeTag) : (setCodeTag s k x).ctxs = s.ctxs := rfl
@[simp] theorem setCodeTag_engs (x : CodeTag) : (setCodeTag s k x).engs = s.engs := rfl
@[simp] theorem setCodeTag_srcs (x : CodeTag) : (setCodeTag s k x).srcs = s.srcs := rfl
@[simp] theorem setCodeTag_ports (x : CodeTag) : (setCodeTag s k x).ports = s.ports := rfl
@[simp] theorem setCodeTag_flows (x : CodeTag) : (setCodeTag s k x).flows = s.flows := rfl
@[simp] theorem setCodeTag_txqs (x : CodeTag) : (setCodeTag s k x).txqs = s.txqs := rfl
@[simp] theorem setCodeTag_pairs (x : CodeTag) : (setCodeTag s k x).pairs = s.pairs := rfl
@[simp] theorem setCodeTag_seqs (x : CodeTag) : (setCodeTag s k x).seqs = s.seqs := rfl
@[simp] theorem setCodeTag_tmrs (x : CodeTag) : (setCodeTag s k x).tmrs = s.tmrs := rfl
@[simp] theorem setCodeTag_pwms (x : CodeTag) : (setCodeTag s k x).pwms = s.pwms := rfl
@[simp] theorem setCodeTag_mbxs (x : CodeTag) : (setCodeTag s k x).mbxs = s.mbxs := rfl
@[simp] theorem setCodeTag_locks (x : CodeTag) : (setCodeTag s k x).locks = s.locks := rfl
@[simp] theorem setCodeTag_pmcs (x : CodeTag) : (setCodeTag s k x).pmcs = s.pmcs := rfl
@[simp] theorem setCodeTag_smps (x : CodeTag) : (setCodeTag s k x).smps = s.smps := rfl
@[simp] theorem setCodeTag_links (x : CodeTag) : (setCodeTag s k x).links = s.links := rfl
@[simp] theorem setCodeTag_mem (x : CodeTag) : (setCodeTag s k x).mem = s.mem := rfl
@[simp] theorem setCodeTag_code (x : CodeTag) : (setCodeTag s k x).code = s.code := rfl
@[simp] theorem setCodeTag_flash (x : CodeTag) : (setCodeTag s k x).flash = s.flash := rfl
@[simp] theorem setCodeTag_wstore (x : CodeTag) : (setCodeTag s k x).wstore = s.wstore := rfl
@[simp] theorem setCodeTag_dec (x : CodeTag) : (setCodeTag s k x).dec = s.dec := rfl
@[simp] theorem setCodeTag_mirror (x : CodeTag) : (setCodeTag s k x).mirror = s.mirror := rfl
@[simp] theorem setCodeTag_badBlk (x : CodeTag) : (setCodeTag s k x).badBlk = s.badBlk := rfl
@[simp] theorem setCodeTag_hdr (x : CodeTag) : (setCodeTag s k x).hdr = s.hdr := rfl
@[simp] theorem setCodeTag_fns (x : CodeTag) : (setCodeTag s k x).fns = s.fns := rfl
@[simp] theorem setCodeTag_nvm (x : CodeTag) : (setCodeTag s k x).nvm = s.nvm := rfl
@[simp] theorem setCodeTag_sec (x : CodeTag) : (setCodeTag s k x).sec = s.sec := rfl
@[simp] theorem setCodeTag_hp (x : CodeTag) : (setCodeTag s k x).hp = s.hp := rfl
@[simp] theorem setCodeTag_dbg (x : CodeTag) : (setCodeTag s k x).dbg = s.dbg := rfl
@[simp] theorem setCodeTag_getTile (x : CodeTag) : getTile (setCodeTag s k x) j = getTile s j := rfl
@[simp] theorem setCodeTag_getCtx (x : CodeTag) : getCtx (setCodeTag s k x) j = getCtx s j := rfl
@[simp] theorem setCodeTag_getEng (x : CodeTag) : getEng (setCodeTag s k x) j = getEng s j := rfl
@[simp] theorem setCodeTag_getSrc (x : CodeTag) : getSrc (setCodeTag s k x) j = getSrc s j := rfl
@[simp] theorem setCodeTag_getPort (x : CodeTag) : getPort (setCodeTag s k x) j = getPort s j := rfl
@[simp] theorem setCodeTag_getFlow (x : CodeTag) : getFlow (setCodeTag s k x) j = getFlow s j := rfl
@[simp] theorem setCodeTag_getTxQ (x : CodeTag) : getTxQ (setCodeTag s k x) j = getTxQ s j := rfl
@[simp] theorem setCodeTag_getPair (x : CodeTag) : getPair (setCodeTag s k x) j = getPair s j := rfl
@[simp] theorem setCodeTag_getSeq (x : CodeTag) : getSeq (setCodeTag s k x) j = getSeq s j := rfl
@[simp] theorem setCodeTag_getTmr (x : CodeTag) : getTmr (setCodeTag s k x) j = getTmr s j := rfl
@[simp] theorem setCodeTag_getPwm (x : CodeTag) : getPwm (setCodeTag s k x) j = getPwm s j := rfl
@[simp] theorem setCodeTag_getMbx (x : CodeTag) : getMbx (setCodeTag s k x) j = getMbx s j := rfl
@[simp] theorem setCodeTag_getPmc (x : CodeTag) : getPmc (setCodeTag s k x) j = getPmc s j := rfl
@[simp] theorem setCodeTag_getSmp (x : CodeTag) : getSmp (setCodeTag s k x) j = getSmp s j := rfl
@[simp] theorem setCodeTag_getLink (x : CodeTag) : getLink (setCodeTag s k x) j = getLink s j := rfl
@[simp] theorem setCodeTag_getCodeTag (x : CodeTag) : getCodeTag (setCodeTag s k x) j = if j = k then x else getCodeTag s j := by
  simp [getCodeTag, setCodeTag, sget_sput]
@[simp] theorem setCodeTag_getUWord (x : CodeTag) : getUWord (setCodeTag s k x) j = getUWord s j := rfl
@[simp] theorem setCodeTag_getDec (x : CodeTag) : getDec (setCodeTag s k x) j = getDec s j := rfl
@[simp] theorem setCodeTag_getMirror (x : CodeTag) : getMirror (setCodeTag s k x) j = getMirror s j := rfl
@[simp] theorem setCodeTag_getFn (x : CodeTag) : getFn (setCodeTag s k x) j = getFn s j := rfl
@[simp] theorem setCodeTag_rg (x : CodeTag) : rg (setCodeTag s k x) j = rg s j := rfl
@[simp] theorem setCodeTag_sg (x : CodeTag) : sg (setCodeTag s k x) j = sg s j := rfl
@[simp] theorem setCodeTag_getLock (x : CodeTag) : getLock (setCodeTag s k x) j = getLock s j := rfl

/-! ## `setUWord` -/

@[simp] theorem setUWord_pending (x : UWord) : (setUWord s k x).pending = s.pending := rfl
@[simp] theorem setUWord_nTiles (x : UWord) : (setUWord s k x).nTiles = s.nTiles := rfl
@[simp] theorem setUWord_begun (x : UWord) : (setUWord s k x).begun = s.begun := rfl
@[simp] theorem setUWord_kpTest (x : UWord) : (setUWord s k x).kpTest = s.kpTest := rfl
@[simp] theorem setUWord_fresh (x : UWord) : (setUWord s k x).fresh = s.fresh := rfl
@[simp] theorem setUWord_result (x : UWord) : (setUWord s k x).result = s.result := rfl
@[simp] theorem setUWord_regs (x : UWord) : (setUWord s k x).regs = s.regs := rfl
@[simp] theorem setUWord_staged (x : UWord) : (setUWord s k x).staged = s.staged := rfl
@[simp] theorem setUWord_tiles (x : UWord) : (setUWord s k x).tiles = s.tiles := rfl
@[simp] theorem setUWord_ctxs (x : UWord) : (setUWord s k x).ctxs = s.ctxs := rfl
@[simp] theorem setUWord_engs (x : UWord) : (setUWord s k x).engs = s.engs := rfl
@[simp] theorem setUWord_srcs (x : UWord) : (setUWord s k x).srcs = s.srcs := rfl
@[simp] theorem setUWord_ports (x : UWord) : (setUWord s k x).ports = s.ports := rfl
@[simp] theorem setUWord_flows (x : UWord) : (setUWord s k x).flows = s.flows := rfl
@[simp] theorem setUWord_txqs (x : UWord) : (setUWord s k x).txqs = s.txqs := rfl
@[simp] theorem setUWord_pairs (x : UWord) : (setUWord s k x).pairs = s.pairs := rfl
@[simp] theorem setUWord_seqs (x : UWord) : (setUWord s k x).seqs = s.seqs := rfl
@[simp] theorem setUWord_tmrs (x : UWord) : (setUWord s k x).tmrs = s.tmrs := rfl
@[simp] theorem setUWord_pwms (x : UWord) : (setUWord s k x).pwms = s.pwms := rfl
@[simp] theorem setUWord_mbxs (x : UWord) : (setUWord s k x).mbxs = s.mbxs := rfl
@[simp] theorem setUWord_locks (x : UWord) : (setUWord s k x).locks = s.locks := rfl
@[simp] theorem setUWord_pmcs (x : UWord) : (setUWord s k x).pmcs = s.pmcs := rfl
@[simp] theorem setUWord_smps (x : UWord) : (setUWord s k x).smps = s.smps := rfl
@[simp] theorem setUWord_links (x : UWord) : (setUWord s k x).links = s.links := rfl
@[simp] theorem setUWord_mem (x : UWord) : (setUWord s k x).mem = s.mem := rfl
@[simp] theorem setUWord_code (x : UWord) : (setUWord s k x).code = s.code := rfl
@[simp] theorem setUWord_flash (x : UWord) : (setUWord s k x).flash = s.flash := rfl
@[simp] theorem setUWord_codeTag (x : UWord) : (setUWord s k x).codeTag = s.codeTag := rfl
@[simp] theorem setUWord_dec (x : UWord) : (setUWord s k x).dec = s.dec := rfl
@[simp] theorem setUWord_mirror (x : UWord) : (setUWord s k x).mirror = s.mirror := rfl
@[simp] theorem setUWord_badBlk (x : UWord) : (setUWord s k x).badBlk = s.badBlk := rfl
@[simp] theorem setUWord_hdr (x : UWord) : (setUWord s k x).hdr = s.hdr := rfl
@[simp] theorem setUWord_fns (x : UWord) : (setUWord s k x).fns = s.fns := rfl
@[simp] theorem setUWord_nvm (x : UWord) : (setUWord s k x).nvm = s.nvm := rfl
@[simp] theorem setUWord_sec (x : UWord) : (setUWord s k x).sec = s.sec := rfl
@[simp] theorem setUWord_hp (x : UWord) : (setUWord s k x).hp = s.hp := rfl
@[simp] theorem setUWord_dbg (x : UWord) : (setUWord s k x).dbg = s.dbg := rfl
@[simp] theorem setUWord_getTile (x : UWord) : getTile (setUWord s k x) j = getTile s j := rfl
@[simp] theorem setUWord_getCtx (x : UWord) : getCtx (setUWord s k x) j = getCtx s j := rfl
@[simp] theorem setUWord_getEng (x : UWord) : getEng (setUWord s k x) j = getEng s j := rfl
@[simp] theorem setUWord_getSrc (x : UWord) : getSrc (setUWord s k x) j = getSrc s j := rfl
@[simp] theorem setUWord_getPort (x : UWord) : getPort (setUWord s k x) j = getPort s j := rfl
@[simp] theorem setUWord_getFlow (x : UWord) : getFlow (setUWord s k x) j = getFlow s j := rfl
@[simp] theorem setUWord_getTxQ (x : UWord) : getTxQ (setUWord s k x) j = getTxQ s j := rfl
@[simp] theorem setUWord_getPair (x : UWord) : getPair (setUWord s k x) j = getPair s j := rfl
@[simp] theorem setUWord_getSeq (x : UWord) : getSeq (setUWord s k x) j = getSeq s j := rfl
@[simp] theorem setUWord_getTmr (x : UWord) : getTmr (setUWord s k x) j = getTmr s j := rfl
@[simp] theorem setUWord_getPwm (x : UWord) : getPwm (setUWord s k x) j = getPwm s j := rfl
@[simp] theorem setUWord_getMbx (x : UWord) : getMbx (setUWord s k x) j = getMbx s j := rfl
@[simp] theorem setUWord_getPmc (x : UWord) : getPmc (setUWord s k x) j = getPmc s j := rfl
@[simp] theorem setUWord_getSmp (x : UWord) : getSmp (setUWord s k x) j = getSmp s j := rfl
@[simp] theorem setUWord_getLink (x : UWord) : getLink (setUWord s k x) j = getLink s j := rfl
@[simp] theorem setUWord_getCodeTag (x : UWord) : getCodeTag (setUWord s k x) j = getCodeTag s j := rfl
@[simp] theorem setUWord_getUWord (x : UWord) : getUWord (setUWord s k x) j = if j = k then x else getUWord s j := by
  simp [getUWord, setUWord, sget_sput]
@[simp] theorem setUWord_getDec (x : UWord) : getDec (setUWord s k x) j = getDec s j := rfl
@[simp] theorem setUWord_getMirror (x : UWord) : getMirror (setUWord s k x) j = getMirror s j := rfl
@[simp] theorem setUWord_getFn (x : UWord) : getFn (setUWord s k x) j = getFn s j := rfl
@[simp] theorem setUWord_rg (x : UWord) : rg (setUWord s k x) j = rg s j := rfl
@[simp] theorem setUWord_sg (x : UWord) : sg (setUWord s k x) j = sg s j := rfl
@[simp] theorem setUWord_getLock (x : UWord) : getLock (setUWord s k x) j = getLock s j := rfl

/-! ## `setDec` -/

@[simp] theorem setDec_pending (x : Dec) : (setDec s k x).pending = s.pending := rfl
@[simp] theorem setDec_nTiles (x : Dec) : (setDec s k x).nTiles = s.nTiles := rfl
@[simp] theorem setDec_begun (x : Dec) : (setDec s k x).begun = s.begun := rfl
@[simp] theorem setDec_kpTest (x : Dec) : (setDec s k x).kpTest = s.kpTest := rfl
@[simp] theorem setDec_fresh (x : Dec) : (setDec s k x).fresh = s.fresh := rfl
@[simp] theorem setDec_result (x : Dec) : (setDec s k x).result = s.result := rfl
@[simp] theorem setDec_regs (x : Dec) : (setDec s k x).regs = s.regs := rfl
@[simp] theorem setDec_staged (x : Dec) : (setDec s k x).staged = s.staged := rfl
@[simp] theorem setDec_tiles (x : Dec) : (setDec s k x).tiles = s.tiles := rfl
@[simp] theorem setDec_ctxs (x : Dec) : (setDec s k x).ctxs = s.ctxs := rfl
@[simp] theorem setDec_engs (x : Dec) : (setDec s k x).engs = s.engs := rfl
@[simp] theorem setDec_srcs (x : Dec) : (setDec s k x).srcs = s.srcs := rfl
@[simp] theorem setDec_ports (x : Dec) : (setDec s k x).ports = s.ports := rfl
@[simp] theorem setDec_flows (x : Dec) : (setDec s k x).flows = s.flows := rfl
@[simp] theorem setDec_txqs (x : Dec) : (setDec s k x).txqs = s.txqs := rfl
@[simp] theorem setDec_pairs (x : Dec) : (setDec s k x).pairs = s.pairs := rfl
@[simp] theorem setDec_seqs (x : Dec) : (setDec s k x).seqs = s.seqs := rfl
@[simp] theorem setDec_tmrs (x : Dec) : (setDec s k x).tmrs = s.tmrs := rfl
@[simp] theorem setDec_pwms (x : Dec) : (setDec s k x).pwms = s.pwms := rfl
@[simp] theorem setDec_mbxs (x : Dec) : (setDec s k x).mbxs = s.mbxs := rfl
@[simp] theorem setDec_locks (x : Dec) : (setDec s k x).locks = s.locks := rfl
@[simp] theorem setDec_pmcs (x : Dec) : (setDec s k x).pmcs = s.pmcs := rfl
@[simp] theorem setDec_smps (x : Dec) : (setDec s k x).smps = s.smps := rfl
@[simp] theorem setDec_links (x : Dec) : (setDec s k x).links = s.links := rfl
@[simp] theorem setDec_mem (x : Dec) : (setDec s k x).mem = s.mem := rfl
@[simp] theorem setDec_code (x : Dec) : (setDec s k x).code = s.code := rfl
@[simp] theorem setDec_flash (x : Dec) : (setDec s k x).flash = s.flash := rfl
@[simp] theorem setDec_codeTag (x : Dec) : (setDec s k x).codeTag = s.codeTag := rfl
@[simp] theorem setDec_wstore (x : Dec) : (setDec s k x).wstore = s.wstore := rfl
@[simp] theorem setDec_mirror (x : Dec) : (setDec s k x).mirror = s.mirror := rfl
@[simp] theorem setDec_badBlk (x : Dec) : (setDec s k x).badBlk = s.badBlk := rfl
@[simp] theorem setDec_hdr (x : Dec) : (setDec s k x).hdr = s.hdr := rfl
@[simp] theorem setDec_fns (x : Dec) : (setDec s k x).fns = s.fns := rfl
@[simp] theorem setDec_nvm (x : Dec) : (setDec s k x).nvm = s.nvm := rfl
@[simp] theorem setDec_sec (x : Dec) : (setDec s k x).sec = s.sec := rfl
@[simp] theorem setDec_hp (x : Dec) : (setDec s k x).hp = s.hp := rfl
@[simp] theorem setDec_dbg (x : Dec) : (setDec s k x).dbg = s.dbg := rfl
@[simp] theorem setDec_getTile (x : Dec) : getTile (setDec s k x) j = getTile s j := rfl
@[simp] theorem setDec_getCtx (x : Dec) : getCtx (setDec s k x) j = getCtx s j := rfl
@[simp] theorem setDec_getEng (x : Dec) : getEng (setDec s k x) j = getEng s j := rfl
@[simp] theorem setDec_getSrc (x : Dec) : getSrc (setDec s k x) j = getSrc s j := rfl
@[simp] theorem setDec_getPort (x : Dec) : getPort (setDec s k x) j = getPort s j := rfl
@[simp] theorem setDec_getFlow (x : Dec) : getFlow (setDec s k x) j = getFlow s j := rfl
@[simp] theorem setDec_getTxQ (x : Dec) : getTxQ (setDec s k x) j = getTxQ s j := rfl
@[simp] theorem setDec_getPair (x : Dec) : getPair (setDec s k x) j = getPair s j := rfl
@[simp] theorem setDec_getSeq (x : Dec) : getSeq (setDec s k x) j = getSeq s j := rfl
@[simp] theorem setDec_getTmr (x : Dec) : getTmr (setDec s k x) j = getTmr s j := rfl
@[simp] theorem setDec_getPwm (x : Dec) : getPwm (setDec s k x) j = getPwm s j := rfl
@[simp] theorem setDec_getMbx (x : Dec) : getMbx (setDec s k x) j = getMbx s j := rfl
@[simp] theorem setDec_getPmc (x : Dec) : getPmc (setDec s k x) j = getPmc s j := rfl
@[simp] theorem setDec_getSmp (x : Dec) : getSmp (setDec s k x) j = getSmp s j := rfl
@[simp] theorem setDec_getLink (x : Dec) : getLink (setDec s k x) j = getLink s j := rfl
@[simp] theorem setDec_getCodeTag (x : Dec) : getCodeTag (setDec s k x) j = getCodeTag s j := rfl
@[simp] theorem setDec_getUWord (x : Dec) : getUWord (setDec s k x) j = getUWord s j := rfl
@[simp] theorem setDec_getDec (x : Dec) : getDec (setDec s k x) j = if j = k then x else getDec s j := by
  simp [getDec, setDec, sget_sput]
@[simp] theorem setDec_getMirror (x : Dec) : getMirror (setDec s k x) j = getMirror s j := rfl
@[simp] theorem setDec_getFn (x : Dec) : getFn (setDec s k x) j = getFn s j := rfl
@[simp] theorem setDec_rg (x : Dec) : rg (setDec s k x) j = rg s j := rfl
@[simp] theorem setDec_sg (x : Dec) : sg (setDec s k x) j = sg s j := rfl
@[simp] theorem setDec_getLock (x : Dec) : getLock (setDec s k x) j = getLock s j := rfl

/-! ## `setMirror` -/

@[simp] theorem setMirror_pending (x : Mirror) : (setMirror s k x).pending = s.pending := rfl
@[simp] theorem setMirror_nTiles (x : Mirror) : (setMirror s k x).nTiles = s.nTiles := rfl
@[simp] theorem setMirror_begun (x : Mirror) : (setMirror s k x).begun = s.begun := rfl
@[simp] theorem setMirror_kpTest (x : Mirror) : (setMirror s k x).kpTest = s.kpTest := rfl
@[simp] theorem setMirror_fresh (x : Mirror) : (setMirror s k x).fresh = s.fresh := rfl
@[simp] theorem setMirror_result (x : Mirror) : (setMirror s k x).result = s.result := rfl
@[simp] theorem setMirror_regs (x : Mirror) : (setMirror s k x).regs = s.regs := rfl
@[simp] theorem setMirror_staged (x : Mirror) : (setMirror s k x).staged = s.staged := rfl
@[simp] theorem setMirror_tiles (x : Mirror) : (setMirror s k x).tiles = s.tiles := rfl
@[simp] theorem setMirror_ctxs (x : Mirror) : (setMirror s k x).ctxs = s.ctxs := rfl
@[simp] theorem setMirror_engs (x : Mirror) : (setMirror s k x).engs = s.engs := rfl
@[simp] theorem setMirror_srcs (x : Mirror) : (setMirror s k x).srcs = s.srcs := rfl
@[simp] theorem setMirror_ports (x : Mirror) : (setMirror s k x).ports = s.ports := rfl
@[simp] theorem setMirror_flows (x : Mirror) : (setMirror s k x).flows = s.flows := rfl
@[simp] theorem setMirror_txqs (x : Mirror) : (setMirror s k x).txqs = s.txqs := rfl
@[simp] theorem setMirror_pairs (x : Mirror) : (setMirror s k x).pairs = s.pairs := rfl
@[simp] theorem setMirror_seqs (x : Mirror) : (setMirror s k x).seqs = s.seqs := rfl
@[simp] theorem setMirror_tmrs (x : Mirror) : (setMirror s k x).tmrs = s.tmrs := rfl
@[simp] theorem setMirror_pwms (x : Mirror) : (setMirror s k x).pwms = s.pwms := rfl
@[simp] theorem setMirror_mbxs (x : Mirror) : (setMirror s k x).mbxs = s.mbxs := rfl
@[simp] theorem setMirror_locks (x : Mirror) : (setMirror s k x).locks = s.locks := rfl
@[simp] theorem setMirror_pmcs (x : Mirror) : (setMirror s k x).pmcs = s.pmcs := rfl
@[simp] theorem setMirror_smps (x : Mirror) : (setMirror s k x).smps = s.smps := rfl
@[simp] theorem setMirror_links (x : Mirror) : (setMirror s k x).links = s.links := rfl
@[simp] theorem setMirror_mem (x : Mirror) : (setMirror s k x).mem = s.mem := rfl
@[simp] theorem setMirror_code (x : Mirror) : (setMirror s k x).code = s.code := rfl
@[simp] theorem setMirror_flash (x : Mirror) : (setMirror s k x).flash = s.flash := rfl
@[simp] theorem setMirror_codeTag (x : Mirror) : (setMirror s k x).codeTag = s.codeTag := rfl
@[simp] theorem setMirror_wstore (x : Mirror) : (setMirror s k x).wstore = s.wstore := rfl
@[simp] theorem setMirror_dec (x : Mirror) : (setMirror s k x).dec = s.dec := rfl
@[simp] theorem setMirror_badBlk (x : Mirror) : (setMirror s k x).badBlk = s.badBlk := rfl
@[simp] theorem setMirror_hdr (x : Mirror) : (setMirror s k x).hdr = s.hdr := rfl
@[simp] theorem setMirror_fns (x : Mirror) : (setMirror s k x).fns = s.fns := rfl
@[simp] theorem setMirror_nvm (x : Mirror) : (setMirror s k x).nvm = s.nvm := rfl
@[simp] theorem setMirror_sec (x : Mirror) : (setMirror s k x).sec = s.sec := rfl
@[simp] theorem setMirror_hp (x : Mirror) : (setMirror s k x).hp = s.hp := rfl
@[simp] theorem setMirror_dbg (x : Mirror) : (setMirror s k x).dbg = s.dbg := rfl
@[simp] theorem setMirror_getTile (x : Mirror) : getTile (setMirror s k x) j = getTile s j := rfl
@[simp] theorem setMirror_getCtx (x : Mirror) : getCtx (setMirror s k x) j = getCtx s j := rfl
@[simp] theorem setMirror_getEng (x : Mirror) : getEng (setMirror s k x) j = getEng s j := rfl
@[simp] theorem setMirror_getSrc (x : Mirror) : getSrc (setMirror s k x) j = getSrc s j := rfl
@[simp] theorem setMirror_getPort (x : Mirror) : getPort (setMirror s k x) j = getPort s j := rfl
@[simp] theorem setMirror_getFlow (x : Mirror) : getFlow (setMirror s k x) j = getFlow s j := rfl
@[simp] theorem setMirror_getTxQ (x : Mirror) : getTxQ (setMirror s k x) j = getTxQ s j := rfl
@[simp] theorem setMirror_getPair (x : Mirror) : getPair (setMirror s k x) j = getPair s j := rfl
@[simp] theorem setMirror_getSeq (x : Mirror) : getSeq (setMirror s k x) j = getSeq s j := rfl
@[simp] theorem setMirror_getTmr (x : Mirror) : getTmr (setMirror s k x) j = getTmr s j := rfl
@[simp] theorem setMirror_getPwm (x : Mirror) : getPwm (setMirror s k x) j = getPwm s j := rfl
@[simp] theorem setMirror_getMbx (x : Mirror) : getMbx (setMirror s k x) j = getMbx s j := rfl
@[simp] theorem setMirror_getPmc (x : Mirror) : getPmc (setMirror s k x) j = getPmc s j := rfl
@[simp] theorem setMirror_getSmp (x : Mirror) : getSmp (setMirror s k x) j = getSmp s j := rfl
@[simp] theorem setMirror_getLink (x : Mirror) : getLink (setMirror s k x) j = getLink s j := rfl
@[simp] theorem setMirror_getCodeTag (x : Mirror) : getCodeTag (setMirror s k x) j = getCodeTag s j := rfl
@[simp] theorem setMirror_getUWord (x : Mirror) : getUWord (setMirror s k x) j = getUWord s j := rfl
@[simp] theorem setMirror_getDec (x : Mirror) : getDec (setMirror s k x) j = getDec s j := rfl
@[simp] theorem setMirror_getMirror (x : Mirror) : getMirror (setMirror s k x) j = if j = k then x else getMirror s j := by
  simp [getMirror, setMirror, sget_sput]
@[simp] theorem setMirror_getFn (x : Mirror) : getFn (setMirror s k x) j = getFn s j := rfl
@[simp] theorem setMirror_rg (x : Mirror) : rg (setMirror s k x) j = rg s j := rfl
@[simp] theorem setMirror_sg (x : Mirror) : sg (setMirror s k x) j = sg s j := rfl
@[simp] theorem setMirror_getLock (x : Mirror) : getLock (setMirror s k x) j = getLock s j := rfl

/-! ## `setFn` -/

@[simp] theorem setFn_pending (x : Fn) : (setFn s k x).pending = s.pending := rfl
@[simp] theorem setFn_nTiles (x : Fn) : (setFn s k x).nTiles = s.nTiles := rfl
@[simp] theorem setFn_begun (x : Fn) : (setFn s k x).begun = s.begun := rfl
@[simp] theorem setFn_kpTest (x : Fn) : (setFn s k x).kpTest = s.kpTest := rfl
@[simp] theorem setFn_fresh (x : Fn) : (setFn s k x).fresh = s.fresh := rfl
@[simp] theorem setFn_result (x : Fn) : (setFn s k x).result = s.result := rfl
@[simp] theorem setFn_regs (x : Fn) : (setFn s k x).regs = s.regs := rfl
@[simp] theorem setFn_staged (x : Fn) : (setFn s k x).staged = s.staged := rfl
@[simp] theorem setFn_tiles (x : Fn) : (setFn s k x).tiles = s.tiles := rfl
@[simp] theorem setFn_ctxs (x : Fn) : (setFn s k x).ctxs = s.ctxs := rfl
@[simp] theorem setFn_engs (x : Fn) : (setFn s k x).engs = s.engs := rfl
@[simp] theorem setFn_srcs (x : Fn) : (setFn s k x).srcs = s.srcs := rfl
@[simp] theorem setFn_ports (x : Fn) : (setFn s k x).ports = s.ports := rfl
@[simp] theorem setFn_flows (x : Fn) : (setFn s k x).flows = s.flows := rfl
@[simp] theorem setFn_txqs (x : Fn) : (setFn s k x).txqs = s.txqs := rfl
@[simp] theorem setFn_pairs (x : Fn) : (setFn s k x).pairs = s.pairs := rfl
@[simp] theorem setFn_seqs (x : Fn) : (setFn s k x).seqs = s.seqs := rfl
@[simp] theorem setFn_tmrs (x : Fn) : (setFn s k x).tmrs = s.tmrs := rfl
@[simp] theorem setFn_pwms (x : Fn) : (setFn s k x).pwms = s.pwms := rfl
@[simp] theorem setFn_mbxs (x : Fn) : (setFn s k x).mbxs = s.mbxs := rfl
@[simp] theorem setFn_locks (x : Fn) : (setFn s k x).locks = s.locks := rfl
@[simp] theorem setFn_pmcs (x : Fn) : (setFn s k x).pmcs = s.pmcs := rfl
@[simp] theorem setFn_smps (x : Fn) : (setFn s k x).smps = s.smps := rfl
@[simp] theorem setFn_links (x : Fn) : (setFn s k x).links = s.links := rfl
@[simp] theorem setFn_mem (x : Fn) : (setFn s k x).mem = s.mem := rfl
@[simp] theorem setFn_code (x : Fn) : (setFn s k x).code = s.code := rfl
@[simp] theorem setFn_flash (x : Fn) : (setFn s k x).flash = s.flash := rfl
@[simp] theorem setFn_codeTag (x : Fn) : (setFn s k x).codeTag = s.codeTag := rfl
@[simp] theorem setFn_wstore (x : Fn) : (setFn s k x).wstore = s.wstore := rfl
@[simp] theorem setFn_dec (x : Fn) : (setFn s k x).dec = s.dec := rfl
@[simp] theorem setFn_mirror (x : Fn) : (setFn s k x).mirror = s.mirror := rfl
@[simp] theorem setFn_badBlk (x : Fn) : (setFn s k x).badBlk = s.badBlk := rfl
@[simp] theorem setFn_hdr (x : Fn) : (setFn s k x).hdr = s.hdr := rfl
@[simp] theorem setFn_nvm (x : Fn) : (setFn s k x).nvm = s.nvm := rfl
@[simp] theorem setFn_sec (x : Fn) : (setFn s k x).sec = s.sec := rfl
@[simp] theorem setFn_hp (x : Fn) : (setFn s k x).hp = s.hp := rfl
@[simp] theorem setFn_dbg (x : Fn) : (setFn s k x).dbg = s.dbg := rfl
@[simp] theorem setFn_getTile (x : Fn) : getTile (setFn s k x) j = getTile s j := rfl
@[simp] theorem setFn_getCtx (x : Fn) : getCtx (setFn s k x) j = getCtx s j := rfl
@[simp] theorem setFn_getEng (x : Fn) : getEng (setFn s k x) j = getEng s j := rfl
@[simp] theorem setFn_getSrc (x : Fn) : getSrc (setFn s k x) j = getSrc s j := rfl
@[simp] theorem setFn_getPort (x : Fn) : getPort (setFn s k x) j = getPort s j := rfl
@[simp] theorem setFn_getFlow (x : Fn) : getFlow (setFn s k x) j = getFlow s j := rfl
@[simp] theorem setFn_getTxQ (x : Fn) : getTxQ (setFn s k x) j = getTxQ s j := rfl
@[simp] theorem setFn_getPair (x : Fn) : getPair (setFn s k x) j = getPair s j := rfl
@[simp] theorem setFn_getSeq (x : Fn) : getSeq (setFn s k x) j = getSeq s j := rfl
@[simp] theorem setFn_getTmr (x : Fn) : getTmr (setFn s k x) j = getTmr s j := rfl
@[simp] theorem setFn_getPwm (x : Fn) : getPwm (setFn s k x) j = getPwm s j := rfl
@[simp] theorem setFn_getMbx (x : Fn) : getMbx (setFn s k x) j = getMbx s j := rfl
@[simp] theorem setFn_getPmc (x : Fn) : getPmc (setFn s k x) j = getPmc s j := rfl
@[simp] theorem setFn_getSmp (x : Fn) : getSmp (setFn s k x) j = getSmp s j := rfl
@[simp] theorem setFn_getLink (x : Fn) : getLink (setFn s k x) j = getLink s j := rfl
@[simp] theorem setFn_getCodeTag (x : Fn) : getCodeTag (setFn s k x) j = getCodeTag s j := rfl
@[simp] theorem setFn_getUWord (x : Fn) : getUWord (setFn s k x) j = getUWord s j := rfl
@[simp] theorem setFn_getDec (x : Fn) : getDec (setFn s k x) j = getDec s j := rfl
@[simp] theorem setFn_getMirror (x : Fn) : getMirror (setFn s k x) j = getMirror s j := rfl
@[simp] theorem setFn_getFn (x : Fn) : getFn (setFn s k x) j = if j = k then x else getFn s j := by
  simp [getFn, setFn, sget_sput]
@[simp] theorem setFn_rg (x : Fn) : rg (setFn s k x) j = rg s j := rfl
@[simp] theorem setFn_sg (x : Fn) : sg (setFn s k x) j = sg s j := rfl
@[simp] theorem setFn_getLock (x : Fn) : getLock (setFn s k x) j = getLock s j := rfl

/-! ## `setRg` -/

@[simp] theorem setRg_pending (x : Word) : (setRg s k x).pending = s.pending := rfl
@[simp] theorem setRg_nTiles (x : Word) : (setRg s k x).nTiles = s.nTiles := rfl
@[simp] theorem setRg_begun (x : Word) : (setRg s k x).begun = s.begun := rfl
@[simp] theorem setRg_kpTest (x : Word) : (setRg s k x).kpTest = s.kpTest := rfl
@[simp] theorem setRg_fresh (x : Word) : (setRg s k x).fresh = s.fresh := rfl
@[simp] theorem setRg_result (x : Word) : (setRg s k x).result = s.result := rfl
@[simp] theorem setRg_staged (x : Word) : (setRg s k x).staged = s.staged := rfl
@[simp] theorem setRg_tiles (x : Word) : (setRg s k x).tiles = s.tiles := rfl
@[simp] theorem setRg_ctxs (x : Word) : (setRg s k x).ctxs = s.ctxs := rfl
@[simp] theorem setRg_engs (x : Word) : (setRg s k x).engs = s.engs := rfl
@[simp] theorem setRg_srcs (x : Word) : (setRg s k x).srcs = s.srcs := rfl
@[simp] theorem setRg_ports (x : Word) : (setRg s k x).ports = s.ports := rfl
@[simp] theorem setRg_flows (x : Word) : (setRg s k x).flows = s.flows := rfl
@[simp] theorem setRg_txqs (x : Word) : (setRg s k x).txqs = s.txqs := rfl
@[simp] theorem setRg_pairs (x : Word) : (setRg s k x).pairs = s.pairs := rfl
@[simp] theorem setRg_seqs (x : Word) : (setRg s k x).seqs = s.seqs := rfl
@[simp] theorem setRg_tmrs (x : Word) : (setRg s k x).tmrs = s.tmrs := rfl
@[simp] theorem setRg_pwms (x : Word) : (setRg s k x).pwms = s.pwms := rfl
@[simp] theorem setRg_mbxs (x : Word) : (setRg s k x).mbxs = s.mbxs := rfl
@[simp] theorem setRg_locks (x : Word) : (setRg s k x).locks = s.locks := rfl
@[simp] theorem setRg_pmcs (x : Word) : (setRg s k x).pmcs = s.pmcs := rfl
@[simp] theorem setRg_smps (x : Word) : (setRg s k x).smps = s.smps := rfl
@[simp] theorem setRg_links (x : Word) : (setRg s k x).links = s.links := rfl
@[simp] theorem setRg_mem (x : Word) : (setRg s k x).mem = s.mem := rfl
@[simp] theorem setRg_code (x : Word) : (setRg s k x).code = s.code := rfl
@[simp] theorem setRg_flash (x : Word) : (setRg s k x).flash = s.flash := rfl
@[simp] theorem setRg_codeTag (x : Word) : (setRg s k x).codeTag = s.codeTag := rfl
@[simp] theorem setRg_wstore (x : Word) : (setRg s k x).wstore = s.wstore := rfl
@[simp] theorem setRg_dec (x : Word) : (setRg s k x).dec = s.dec := rfl
@[simp] theorem setRg_mirror (x : Word) : (setRg s k x).mirror = s.mirror := rfl
@[simp] theorem setRg_badBlk (x : Word) : (setRg s k x).badBlk = s.badBlk := rfl
@[simp] theorem setRg_hdr (x : Word) : (setRg s k x).hdr = s.hdr := rfl
@[simp] theorem setRg_fns (x : Word) : (setRg s k x).fns = s.fns := rfl
@[simp] theorem setRg_nvm (x : Word) : (setRg s k x).nvm = s.nvm := rfl
@[simp] theorem setRg_sec (x : Word) : (setRg s k x).sec = s.sec := rfl
@[simp] theorem setRg_hp (x : Word) : (setRg s k x).hp = s.hp := rfl
@[simp] theorem setRg_dbg (x : Word) : (setRg s k x).dbg = s.dbg := rfl
@[simp] theorem setRg_getTile (x : Word) : getTile (setRg s k x) j = getTile s j := rfl
@[simp] theorem setRg_getCtx (x : Word) : getCtx (setRg s k x) j = getCtx s j := rfl
@[simp] theorem setRg_getEng (x : Word) : getEng (setRg s k x) j = getEng s j := rfl
@[simp] theorem setRg_getSrc (x : Word) : getSrc (setRg s k x) j = getSrc s j := rfl
@[simp] theorem setRg_getPort (x : Word) : getPort (setRg s k x) j = getPort s j := rfl
@[simp] theorem setRg_getFlow (x : Word) : getFlow (setRg s k x) j = getFlow s j := rfl
@[simp] theorem setRg_getTxQ (x : Word) : getTxQ (setRg s k x) j = getTxQ s j := rfl
@[simp] theorem setRg_getPair (x : Word) : getPair (setRg s k x) j = getPair s j := rfl
@[simp] theorem setRg_getSeq (x : Word) : getSeq (setRg s k x) j = getSeq s j := rfl
@[simp] theorem setRg_getTmr (x : Word) : getTmr (setRg s k x) j = getTmr s j := rfl
@[simp] theorem setRg_getPwm (x : Word) : getPwm (setRg s k x) j = getPwm s j := rfl
@[simp] theorem setRg_getMbx (x : Word) : getMbx (setRg s k x) j = getMbx s j := rfl
@[simp] theorem setRg_getPmc (x : Word) : getPmc (setRg s k x) j = getPmc s j := rfl
@[simp] theorem setRg_getSmp (x : Word) : getSmp (setRg s k x) j = getSmp s j := rfl
@[simp] theorem setRg_getLink (x : Word) : getLink (setRg s k x) j = getLink s j := rfl
@[simp] theorem setRg_getCodeTag (x : Word) : getCodeTag (setRg s k x) j = getCodeTag s j := rfl
@[simp] theorem setRg_getUWord (x : Word) : getUWord (setRg s k x) j = getUWord s j := rfl
@[simp] theorem setRg_getDec (x : Word) : getDec (setRg s k x) j = getDec s j := rfl
@[simp] theorem setRg_getMirror (x : Word) : getMirror (setRg s k x) j = getMirror s j := rfl
@[simp] theorem setRg_getFn (x : Word) : getFn (setRg s k x) j = getFn s j := rfl
@[simp] theorem setRg_rg (x : Word) : rg (setRg s k x) j = if j = k then x else rg s j := by
  by_cases h : j = k
  · subst h; simp [rg, setRg]
  · simp only [rg, setRg, h, if_false]; exact sget_sput_other _ _ _ _ _ _ h
@[simp] theorem setRg_sg (x : Word) : sg (setRg s k x) j = sg s j := rfl
@[simp] theorem setRg_getLock (x : Word) : getLock (setRg s k x) j = getLock s j := rfl

/-! ## `setSg` -/

@[simp] theorem setSg_pending (x : Word) : (setSg s k x).pending = s.pending := rfl
@[simp] theorem setSg_nTiles (x : Word) : (setSg s k x).nTiles = s.nTiles := rfl
@[simp] theorem setSg_begun (x : Word) : (setSg s k x).begun = s.begun := rfl
@[simp] theorem setSg_kpTest (x : Word) : (setSg s k x).kpTest = s.kpTest := rfl
@[simp] theorem setSg_fresh (x : Word) : (setSg s k x).fresh = s.fresh := rfl
@[simp] theorem setSg_result (x : Word) : (setSg s k x).result = s.result := rfl
@[simp] theorem setSg_regs (x : Word) : (setSg s k x).regs = s.regs := rfl
@[simp] theorem setSg_tiles (x : Word) : (setSg s k x).tiles = s.tiles := rfl
@[simp] theorem setSg_ctxs (x : Word) : (setSg s k x).ctxs = s.ctxs := rfl
@[simp] theorem setSg_engs (x : Word) : (setSg s k x).engs = s.engs := rfl
@[simp] theorem setSg_srcs (x : Word) : (setSg s k x).srcs = s.srcs := rfl
@[simp] theorem setSg_ports (x : Word) : (setSg s k x).ports = s.ports := rfl
@[simp] theorem setSg_flows (x : Word) : (setSg s k x).flows = s.flows := rfl
@[simp] theorem setSg_txqs (x : Word) : (setSg s k x).txqs = s.txqs := rfl
@[simp] theorem setSg_pairs (x : Word) : (setSg s k x).pairs = s.pairs := rfl
@[simp] theorem setSg_seqs (x : Word) : (setSg s k x).seqs = s.seqs := rfl
@[simp] theorem setSg_tmrs (x : Word) : (setSg s k x).tmrs = s.tmrs := rfl
@[simp] theorem setSg_pwms (x : Word) : (setSg s k x).pwms = s.pwms := rfl
@[simp] theorem setSg_mbxs (x : Word) : (setSg s k x).mbxs = s.mbxs := rfl
@[simp] theorem setSg_locks (x : Word) : (setSg s k x).locks = s.locks := rfl
@[simp] theorem setSg_pmcs (x : Word) : (setSg s k x).pmcs = s.pmcs := rfl
@[simp] theorem setSg_smps (x : Word) : (setSg s k x).smps = s.smps := rfl
@[simp] theorem setSg_links (x : Word) : (setSg s k x).links = s.links := rfl
@[simp] theorem setSg_mem (x : Word) : (setSg s k x).mem = s.mem := rfl
@[simp] theorem setSg_code (x : Word) : (setSg s k x).code = s.code := rfl
@[simp] theorem setSg_flash (x : Word) : (setSg s k x).flash = s.flash := rfl
@[simp] theorem setSg_codeTag (x : Word) : (setSg s k x).codeTag = s.codeTag := rfl
@[simp] theorem setSg_wstore (x : Word) : (setSg s k x).wstore = s.wstore := rfl
@[simp] theorem setSg_dec (x : Word) : (setSg s k x).dec = s.dec := rfl
@[simp] theorem setSg_mirror (x : Word) : (setSg s k x).mirror = s.mirror := rfl
@[simp] theorem setSg_badBlk (x : Word) : (setSg s k x).badBlk = s.badBlk := rfl
@[simp] theorem setSg_hdr (x : Word) : (setSg s k x).hdr = s.hdr := rfl
@[simp] theorem setSg_fns (x : Word) : (setSg s k x).fns = s.fns := rfl
@[simp] theorem setSg_nvm (x : Word) : (setSg s k x).nvm = s.nvm := rfl
@[simp] theorem setSg_sec (x : Word) : (setSg s k x).sec = s.sec := rfl
@[simp] theorem setSg_hp (x : Word) : (setSg s k x).hp = s.hp := rfl
@[simp] theorem setSg_dbg (x : Word) : (setSg s k x).dbg = s.dbg := rfl
@[simp] theorem setSg_getTile (x : Word) : getTile (setSg s k x) j = getTile s j := rfl
@[simp] theorem setSg_getCtx (x : Word) : getCtx (setSg s k x) j = getCtx s j := rfl
@[simp] theorem setSg_getEng (x : Word) : getEng (setSg s k x) j = getEng s j := rfl
@[simp] theorem setSg_getSrc (x : Word) : getSrc (setSg s k x) j = getSrc s j := rfl
@[simp] theorem setSg_getPort (x : Word) : getPort (setSg s k x) j = getPort s j := rfl
@[simp] theorem setSg_getFlow (x : Word) : getFlow (setSg s k x) j = getFlow s j := rfl
@[simp] theorem setSg_getTxQ (x : Word) : getTxQ (setSg s k x) j = getTxQ s j := rfl
@[simp] theorem setSg_getPair (x : Word) : getPair (setSg s k x) j = getPair s j := rfl
@[simp] theorem setSg_getSeq (x : Word) : getSeq (setSg s k x) j = getSeq s j := rfl
@[simp] theorem setSg_getTmr (x : Word) : getTmr (setSg s k x) j = getTmr s j := rfl
@[simp] theorem setSg_getPwm (x : Word) : getPwm (setSg s k x) j = getPwm s j := rfl
@[simp] theorem setSg_getMbx (x : Word) : getMbx (setSg s k x) j = getMbx s j := rfl
@[simp] theorem setSg_getPmc (x : Word) : getPmc (setSg s k x) j = getPmc s j := rfl
@[simp] theorem setSg_getSmp (x : Word) : getSmp (setSg s k x) j = getSmp s j := rfl
@[simp] theorem setSg_getLink (x : Word) : getLink (setSg s k x) j = getLink s j := rfl
@[simp] theorem setSg_getCodeTag (x : Word) : getCodeTag (setSg s k x) j = getCodeTag s j := rfl
@[simp] theorem setSg_getUWord (x : Word) : getUWord (setSg s k x) j = getUWord s j := rfl
@[simp] theorem setSg_getDec (x : Word) : getDec (setSg s k x) j = getDec s j := rfl
@[simp] theorem setSg_getMirror (x : Word) : getMirror (setSg s k x) j = getMirror s j := rfl
@[simp] theorem setSg_getFn (x : Word) : getFn (setSg s k x) j = getFn s j := rfl
@[simp] theorem setSg_rg (x : Word) : rg (setSg s k x) j = rg s j := rfl
@[simp] theorem setSg_sg (x : Word) : sg (setSg s k x) j = if j = k then x else sg s j := by
  by_cases h : j = k
  · subst h; simp [sg, setSg]
  · simp only [sg, setSg, h, if_false]; exact sget_sput_other _ _ _ _ _ _ h
@[simp] theorem setSg_getLock (x : Word) : getLock (setSg s k x) j = getLock s j := rfl

/-! ## `setLock` -/

@[simp] theorem setLock_pending (x : Word) : (setLock s k x).pending = s.pending := rfl
@[simp] theorem setLock_nTiles (x : Word) : (setLock s k x).nTiles = s.nTiles := rfl
@[simp] theorem setLock_begun (x : Word) : (setLock s k x).begun = s.begun := rfl
@[simp] theorem setLock_kpTest (x : Word) : (setLock s k x).kpTest = s.kpTest := rfl
@[simp] theorem setLock_fresh (x : Word) : (setLock s k x).fresh = s.fresh := rfl
@[simp] theorem setLock_result (x : Word) : (setLock s k x).result = s.result := rfl
@[simp] theorem setLock_regs (x : Word) : (setLock s k x).regs = s.regs := rfl
@[simp] theorem setLock_staged (x : Word) : (setLock s k x).staged = s.staged := rfl
@[simp] theorem setLock_tiles (x : Word) : (setLock s k x).tiles = s.tiles := rfl
@[simp] theorem setLock_ctxs (x : Word) : (setLock s k x).ctxs = s.ctxs := rfl
@[simp] theorem setLock_engs (x : Word) : (setLock s k x).engs = s.engs := rfl
@[simp] theorem setLock_srcs (x : Word) : (setLock s k x).srcs = s.srcs := rfl
@[simp] theorem setLock_ports (x : Word) : (setLock s k x).ports = s.ports := rfl
@[simp] theorem setLock_flows (x : Word) : (setLock s k x).flows = s.flows := rfl
@[simp] theorem setLock_txqs (x : Word) : (setLock s k x).txqs = s.txqs := rfl
@[simp] theorem setLock_pairs (x : Word) : (setLock s k x).pairs = s.pairs := rfl
@[simp] theorem setLock_seqs (x : Word) : (setLock s k x).seqs = s.seqs := rfl
@[simp] theorem setLock_tmrs (x : Word) : (setLock s k x).tmrs = s.tmrs := rfl
@[simp] theorem setLock_pwms (x : Word) : (setLock s k x).pwms = s.pwms := rfl
@[simp] theorem setLock_mbxs (x : Word) : (setLock s k x).mbxs = s.mbxs := rfl
@[simp] theorem setLock_pmcs (x : Word) : (setLock s k x).pmcs = s.pmcs := rfl
@[simp] theorem setLock_smps (x : Word) : (setLock s k x).smps = s.smps := rfl
@[simp] theorem setLock_links (x : Word) : (setLock s k x).links = s.links := rfl
@[simp] theorem setLock_mem (x : Word) : (setLock s k x).mem = s.mem := rfl
@[simp] theorem setLock_code (x : Word) : (setLock s k x).code = s.code := rfl
@[simp] theorem setLock_flash (x : Word) : (setLock s k x).flash = s.flash := rfl
@[simp] theorem setLock_codeTag (x : Word) : (setLock s k x).codeTag = s.codeTag := rfl
@[simp] theorem setLock_wstore (x : Word) : (setLock s k x).wstore = s.wstore := rfl
@[simp] theorem setLock_dec (x : Word) : (setLock s k x).dec = s.dec := rfl
@[simp] theorem setLock_mirror (x : Word) : (setLock s k x).mirror = s.mirror := rfl
@[simp] theorem setLock_badBlk (x : Word) : (setLock s k x).badBlk = s.badBlk := rfl
@[simp] theorem setLock_hdr (x : Word) : (setLock s k x).hdr = s.hdr := rfl
@[simp] theorem setLock_fns (x : Word) : (setLock s k x).fns = s.fns := rfl
@[simp] theorem setLock_nvm (x : Word) : (setLock s k x).nvm = s.nvm := rfl
@[simp] theorem setLock_sec (x : Word) : (setLock s k x).sec = s.sec := rfl
@[simp] theorem setLock_hp (x : Word) : (setLock s k x).hp = s.hp := rfl
@[simp] theorem setLock_dbg (x : Word) : (setLock s k x).dbg = s.dbg := rfl
@[simp] theorem setLock_getTile (x : Word) : getTile (setLock s k x) j = getTile s j := rfl
@[simp] theorem setLock_getCtx (x : Word) : getCtx (setLock s k x) j = getCtx s j := rfl
@[simp] theorem setLock_getEng (x : Word) : getEng (setLock s k x) j = getEng s j := rfl
@[simp] theorem setLock_getSrc (x : Word) : getSrc (setLock s k x) j = getSrc s j := rfl
@[simp] theorem setLock_getPort (x : Word) : getPort (setLock s k x) j = getPort s j := rfl
@[simp] theorem setLock_getFlow (x : Word) : getFlow (setLock s k x) j = getFlow s j := rfl
@[simp] theorem setLock_getTxQ (x : Word) : getTxQ (setLock s k x) j = getTxQ s j := rfl
@[simp] theorem setLock_getPair (x : Word) : getPair (setLock s k x) j = getPair s j := rfl
@[simp] theorem setLock_getSeq (x : Word) : getSeq (setLock s k x) j = getSeq s j := rfl
@[simp] theorem setLock_getTmr (x : Word) : getTmr (setLock s k x) j = getTmr s j := rfl
@[simp] theorem setLock_getPwm (x : Word) : getPwm (setLock s k x) j = getPwm s j := rfl
@[simp] theorem setLock_getMbx (x : Word) : getMbx (setLock s k x) j = getMbx s j := rfl
@[simp] theorem setLock_getPmc (x : Word) : getPmc (setLock s k x) j = getPmc s j := rfl
@[simp] theorem setLock_getSmp (x : Word) : getSmp (setLock s k x) j = getSmp s j := rfl
@[simp] theorem setLock_getLink (x : Word) : getLink (setLock s k x) j = getLink s j := rfl
@[simp] theorem setLock_getCodeTag (x : Word) : getCodeTag (setLock s k x) j = getCodeTag s j := rfl
@[simp] theorem setLock_getUWord (x : Word) : getUWord (setLock s k x) j = getUWord s j := rfl
@[simp] theorem setLock_getDec (x : Word) : getDec (setLock s k x) j = getDec s j := rfl
@[simp] theorem setLock_getMirror (x : Word) : getMirror (setLock s k x) j = getMirror s j := rfl
@[simp] theorem setLock_getFn (x : Word) : getFn (setLock s k x) j = getFn s j := rfl
@[simp] theorem setLock_rg (x : Word) : rg (setLock s k x) j = rg s j := rfl
@[simp] theorem setLock_sg (x : Word) : sg (setLock s k x) j = sg s j := rfl
@[simp] theorem setLock_getLock (x : Word) : getLock (setLock s k x) j = if j = k then x else getLock s j := by
  simp [getLock, setLock, sget_sput]

/-! ## `memWriteBytes` -/

@[simp] theorem memWriteBytes_pending (x : List Byte) : (memWriteBytes s k x).pending = s.pending := rfl
@[simp] theorem memWriteBytes_nTiles (x : List Byte) : (memWriteBytes s k x).nTiles = s.nTiles := rfl
@[simp] theorem memWriteBytes_begun (x : List Byte) : (memWriteBytes s k x).begun = s.begun := rfl
@[simp] theorem memWriteBytes_kpTest (x : List Byte) : (memWriteBytes s k x).kpTest = s.kpTest := rfl
@[simp] theorem memWriteBytes_fresh (x : List Byte) : (memWriteBytes s k x).fresh = s.fresh := rfl
@[simp] theorem memWriteBytes_result (x : List Byte) : (memWriteBytes s k x).result = s.result := rfl
@[simp] theorem memWriteBytes_regs (x : List Byte) : (memWriteBytes s k x).regs = s.regs := rfl
@[simp] theorem memWriteBytes_staged (x : List Byte) : (memWriteBytes s k x).staged = s.staged := rfl
@[simp] theorem memWriteBytes_tiles (x : List Byte) : (memWriteBytes s k x).tiles = s.tiles := rfl
@[simp] theorem memWriteBytes_ctxs (x : List Byte) : (memWriteBytes s k x).ctxs = s.ctxs := rfl
@[simp] theorem memWriteBytes_engs (x : List Byte) : (memWriteBytes s k x).engs = s.engs := rfl
@[simp] theorem memWriteBytes_srcs (x : List Byte) : (memWriteBytes s k x).srcs = s.srcs := rfl
@[simp] theorem memWriteBytes_ports (x : List Byte) : (memWriteBytes s k x).ports = s.ports := rfl
@[simp] theorem memWriteBytes_flows (x : List Byte) : (memWriteBytes s k x).flows = s.flows := rfl
@[simp] theorem memWriteBytes_txqs (x : List Byte) : (memWriteBytes s k x).txqs = s.txqs := rfl
@[simp] theorem memWriteBytes_pairs (x : List Byte) : (memWriteBytes s k x).pairs = s.pairs := rfl
@[simp] theorem memWriteBytes_seqs (x : List Byte) : (memWriteBytes s k x).seqs = s.seqs := rfl
@[simp] theorem memWriteBytes_tmrs (x : List Byte) : (memWriteBytes s k x).tmrs = s.tmrs := rfl
@[simp] theorem memWriteBytes_pwms (x : List Byte) : (memWriteBytes s k x).pwms = s.pwms := rfl
@[simp] theorem memWriteBytes_mbxs (x : List Byte) : (memWriteBytes s k x).mbxs = s.mbxs := rfl
@[simp] theorem memWriteBytes_locks (x : List Byte) : (memWriteBytes s k x).locks = s.locks := rfl
@[simp] theorem memWriteBytes_pmcs (x : List Byte) : (memWriteBytes s k x).pmcs = s.pmcs := rfl
@[simp] theorem memWriteBytes_smps (x : List Byte) : (memWriteBytes s k x).smps = s.smps := rfl
@[simp] theorem memWriteBytes_links (x : List Byte) : (memWriteBytes s k x).links = s.links := rfl
@[simp] theorem memWriteBytes_code (x : List Byte) : (memWriteBytes s k x).code = s.code := rfl
@[simp] theorem memWriteBytes_flash (x : List Byte) : (memWriteBytes s k x).flash = s.flash := rfl
@[simp] theorem memWriteBytes_codeTag (x : List Byte) : (memWriteBytes s k x).codeTag = s.codeTag := rfl
@[simp] theorem memWriteBytes_wstore (x : List Byte) : (memWriteBytes s k x).wstore = s.wstore := rfl
@[simp] theorem memWriteBytes_dec (x : List Byte) : (memWriteBytes s k x).dec = s.dec := rfl
@[simp] theorem memWriteBytes_mirror (x : List Byte) : (memWriteBytes s k x).mirror = s.mirror := rfl
@[simp] theorem memWriteBytes_badBlk (x : List Byte) : (memWriteBytes s k x).badBlk = s.badBlk := rfl
@[simp] theorem memWriteBytes_hdr (x : List Byte) : (memWriteBytes s k x).hdr = s.hdr := rfl
@[simp] theorem memWriteBytes_fns (x : List Byte) : (memWriteBytes s k x).fns = s.fns := rfl
@[simp] theorem memWriteBytes_nvm (x : List Byte) : (memWriteBytes s k x).nvm = s.nvm := rfl
@[simp] theorem memWriteBytes_sec (x : List Byte) : (memWriteBytes s k x).sec = s.sec := rfl
@[simp] theorem memWriteBytes_hp (x : List Byte) : (memWriteBytes s k x).hp = s.hp := rfl
@[simp] theorem memWriteBytes_dbg (x : List Byte) : (memWriteBytes s k x).dbg = s.dbg := rfl
@[simp] theorem memWriteBytes_getTile (x : List Byte) : getTile (memWriteBytes s k x) j = getTile s j := rfl
@[simp] theorem memWriteBytes_getCtx (x : List Byte) : getCtx (memWriteBytes s k x) j = getCtx s j := rfl
@[simp] theorem memWriteBytes_getEng (x : List Byte) : getEng (memWriteBytes s k x) j = getEng s j := rfl
@[simp] theorem memWriteBytes_getSrc (x : List Byte) : getSrc (memWriteBytes s k x) j = getSrc s j := rfl
@[simp] theorem memWriteBytes_getPort (x : List Byte) : getPort (memWriteBytes s k x) j = getPort s j := rfl
@[simp] theorem memWriteBytes_getFlow (x : List Byte) : getFlow (memWriteBytes s k x) j = getFlow s j := rfl
@[simp] theorem memWriteBytes_getTxQ (x : List Byte) : getTxQ (memWriteBytes s k x) j = getTxQ s j := rfl
@[simp] theorem memWriteBytes_getPair (x : List Byte) : getPair (memWriteBytes s k x) j = getPair s j := rfl
@[simp] theorem memWriteBytes_getSeq (x : List Byte) : getSeq (memWriteBytes s k x) j = getSeq s j := rfl
@[simp] theorem memWriteBytes_getTmr (x : List Byte) : getTmr (memWriteBytes s k x) j = getTmr s j := rfl
@[simp] theorem memWriteBytes_getPwm (x : List Byte) : getPwm (memWriteBytes s k x) j = getPwm s j := rfl
@[simp] theorem memWriteBytes_getMbx (x : List Byte) : getMbx (memWriteBytes s k x) j = getMbx s j := rfl
@[simp] theorem memWriteBytes_getPmc (x : List Byte) : getPmc (memWriteBytes s k x) j = getPmc s j := rfl
@[simp] theorem memWriteBytes_getSmp (x : List Byte) : getSmp (memWriteBytes s k x) j = getSmp s j := rfl
@[simp] theorem memWriteBytes_getLink (x : List Byte) : getLink (memWriteBytes s k x) j = getLink s j := rfl
@[simp] theorem memWriteBytes_getCodeTag (x : List Byte) : getCodeTag (memWriteBytes s k x) j = getCodeTag s j := rfl
@[simp] theorem memWriteBytes_getUWord (x : List Byte) : getUWord (memWriteBytes s k x) j = getUWord s j := rfl
@[simp] theorem memWriteBytes_getDec (x : List Byte) : getDec (memWriteBytes s k x) j = getDec s j := rfl
@[simp] theorem memWriteBytes_getMirror (x : List Byte) : getMirror (memWriteBytes s k x) j = getMirror s j := rfl
@[simp] theorem memWriteBytes_getFn (x : List Byte) : getFn (memWriteBytes s k x) j = getFn s j := rfl
@[simp] theorem memWriteBytes_rg (x : List Byte) : rg (memWriteBytes s k x) j = rg s j := rfl
@[simp] theorem memWriteBytes_sg (x : List Byte) : sg (memWriteBytes s k x) j = sg s j := rfl
@[simp] theorem memWriteBytes_getLock (x : List Byte) : getLock (memWriteBytes s k x) j = getLock s j := rfl

/-! ## Changes in place -/

@[simp] theorem modTile_eq (g : Tile → Tile) : modTile s k g = setTile s k (g (getTile s k)) := rfl
@[simp] theorem modCtx_eq (g : Ctx → Ctx) : modCtx s k g = setCtx s k (g (getCtx s k)) := rfl
@[simp] theorem modEng_eq (g : Engine → Engine) : modEng s k g = setEng s k (g (getEng s k)) := rfl
@[simp] theorem modSrc_eq (g : Src → Src) : modSrc s k g = setSrc s k (g (getSrc s k)) := rfl
@[simp] theorem modPort_eq (g : Port → Port) : modPort s k g = setPort s k (g (getPort s k)) := rfl
@[simp] theorem modFlow_eq (g : Flow → Flow) : modFlow s k g = setFlow s k (g (getFlow s k)) := rfl
@[simp] theorem modTxQ_eq (g : TxQ → TxQ) : modTxQ s k g = setTxQ s k (g (getTxQ s k)) := rfl
@[simp] theorem modPair_eq (g : Pair → Pair) : modPair s k g = setPair s k (g (getPair s k)) := rfl
@[simp] theorem modSeq_eq (g : Seq → Seq) : modSeq s k g = setSeq s k (g (getSeq s k)) := rfl
@[simp] theorem modTmr_eq (g : Tmr → Tmr) : modTmr s k g = setTmr s k (g (getTmr s k)) := rfl
@[simp] theorem modPwm_eq (g : Pwm → Pwm) : modPwm s k g = setPwm s k (g (getPwm s k)) := rfl
@[simp] theorem modMbx_eq (g : Mbx → Mbx) : modMbx s k g = setMbx s k (g (getMbx s k)) := rfl
@[simp] theorem modPmc_eq (g : Pmc → Pmc) : modPmc s k g = setPmc s k (g (getPmc s k)) := rfl
@[simp] theorem modSmp_eq (g : Smp → Smp) : modSmp s k g = setSmp s k (g (getSmp s k)) := rfl
@[simp] theorem modLink_eq (g : Link → Link) : modLink s k g = setLink s k (g (getLink s k)) := rfl
@[simp] theorem modCodeTag_eq (g : CodeTag → CodeTag) : modCodeTag s k g = setCodeTag s k (g (getCodeTag s k)) := rfl
@[simp] theorem modUWord_eq (g : UWord → UWord) : modUWord s k g = setUWord s k (g (getUWord s k)) := rfl
@[simp] theorem modDec_eq (g : Dec → Dec) : modDec s k g = setDec s k (g (getDec s k)) := rfl
@[simp] theorem modMirror_eq (g : Mirror → Mirror) : modMirror s k g = setMirror s k (g (getMirror s k)) := rfl
@[simp] theorem modFn_eq (g : Fn → Fn) : modFn s k g = setFn s k (g (getFn s k)) := rfl
@[simp] theorem modRg_eq (g : Word → Word) : modRg s a g = setRg s a (g (rg s a)) := rfl
@[simp] theorem memWrite_eq (n v : Nat) : memWrite s a n v = memWriteBytes s a (leBytes n v) := rfl

end Sys2Proof.Machine
end

