-- ==== Sys2Proof/Tests/Slice0.lean ====
section
/-! SUPPORT. Tests of the model's own: ill-formed commands that the checks refuse, states that meet the hypotheses of the statements,
and results that the spec gives. -/
namespace Sys2Proof.Tests
set_option Elab.async false
open Sys2Proof.Machine

/-- A flit of a type, from tile `src` for tile 0, with nothing else in it. -/
def flit (typ : BitVec 4) (src : BitVec 3) : Flit :=
  { typ, vc := 0, ackv := false, more := false, len := 8, lseq := 0, lack := 0, src, dst := 0, fwd := 0, eseq := 0, parcel := 1, priv := 0,
    kind := 0, issuer := 0, tag := 0, addr := 0, aux := 0, payload := 0 }

/-! ## Ill-formed commands -/

/-- One ill-formed command for each check of well-formedness. -/
theorem test_wf_refuses : ([.powerDown (.ctx 2048) 0 0, .powerDown (.host 32) 0 0, .registerWrite (.host 32) 0 0, .hostRead 32 0 0 4,
    .hostRead 0 0 0 3, .hostWrite 32 0 0 8 0, .hostWrite 0 0 0 16 0, .referenceLost 8, .powerUp (.dbg true) 8 0, .paceWindowEnd 8 0 0 0 0,
    .paceWindowEnd 0 1024 0 0 0, .paceWindowEnd 0 0 1024 0 0, .paceWindowEnd 0 0 0 1024 0, .paceWindowEnd 0 0 0 0 1024,
    .functionEnable (.dbg true) 64, .functionEnable (.host 32) 0, .drainComplete 64, .grantChange (.dbg true) 16 0, .kick (.ctx 2048) 0,
    .tagGroupRebuild 8 0, .tagGroupRebuild 0 1024, .add 2048 0, .haltTakesEffect 2048, .ctxSwWrite (.dbg true) 2048 0,
    .ctxSwWrite (.host 32) 0 0, .watchdogExpired 16, .eventClaim (.dbg true) 8 0, .eventClaim (.dbg true) 0 16, .eventClaim (.host 32) 0 0,
    .pset (.dbg true) 8 0, .pset (.dbg true) 0 1024, .pset (.host 32) 0 0, .jabber 64, .flowConsume (.dbg true) 64 0 0,
    .flowConsume (.dbg true) 0 8 0, .flowConsume (.host 32) 0 0 0] : List Instr).all (fun i => !wf i) = true := by decide +kernel

theorem test_wf_refuses_more : ([.force (.host 32) 0, .force (.dbg true) 64, .pauseExpired 64 0, .pauseExpired 0 8, .chunkComplete 64,
    .idleFlit 8 0 (flit 15 0), .idleFlit 0 4 (flit 15 0), .idleFlit 0 0 (flit 1 0), .writeFlit 0 0 (flit 15 0), .readFlit 0 0 (flit 15 0), .rdataFlit 0 0 (flit 15 0),
    .doorbellFlit 0 0 (flit 15 0), .mailboxFlit 0 0 (flit 15 0), .kickFlit 0 0 (flit 15 0), .mirwrFlit 0 0 (flit 15 0), .mirreqFlit 0 0 (flit 15 0), .mirdatFlit 0 0 (flit 15 0),
    .syncFlit 0 0 (flit 15 0), .ctrlFlit 0 0 (flit 15 0), .nakFlit 0 0 (flit 15 0), .writeFlit 8 0 (flit 1 0), .nakFlit 0 4 (flit 0xC 0), .linkTrainingLoss 8 0,
    .linkTrainingLoss 0 4, .retrain (.host 32) 0 0, .retrain (.dbg true) 8 0, .retrain (.dbg true) 0 4, .eseqGapTimeout 8 0 0,
    .eseqGapTimeout 0 8 0, .eseqGapTimeout 0 0 4, .mailboxSend (.host 32) 0 0, .mailboxSend (.dbg true) 256 0, .lockRead (.host 32) 0,
    .lockRead (.dbg true) 512, .sequencerBoundary 256 0, .sequencerStart (.host 32) 0, .sequencerStart (.dbg true) 256,
    .captureSnapshot (.host 32) 0, .captureSnapshot (.dbg true) 128, .captureEdge 128 true, .deadTimeEnd 64 0, .deadTimeEnd 0 65536,
    .counterClaim (.host 32) 0 0, .counterClaim (.dbg true) 8 0, .counterClaim (.dbg true) 0 144, .snapshotDue 8 0, .snapshotDue 0 16,
    .samplerClaim (.host 32) 0 0, .samplerClaim (.dbg true) 8 0, .samplerClaim (.dbg true) 0 16, .sampleRemove (.host 32) 0 0 0,
    .sampleRemove (.dbg true) 8 0 0, .sampleRemove (.dbg true) 0 16 0, .sampleRemove (.dbg true) 0 0 128, .powerAcknowledge 8 0 true,
    .powerAcknowledge 0 10 true, .parcelSlotStart 8 0, .parcelSlotStart 0 16, .reservedOpcode 2048 0x15 0,
    .reservedOpcode 0 0x14 0] : List Instr).all (fun i => !wf i) = true := by decide +kernel

theorem test_wf_refuses_sites : ([.engine 16 0, .engine 0 2048, .rom 16 0, .rom 0 2048, .snapshot 16 0, .snapshot 0 2048, .bank [.agent (.host 32)], .bank [.portRx 8],
    .bank [.portTx 8], .hostPort (.host 32), .portRx 8, .portTx 8, .pair 8, .events 1024 false, .sequencer 32, .pwm 8, .link 4] : List FaultSite).all (fun x =>
      !wf (.handshakeStall 0 x) && !wf (.dualRailCodeError 0 x none)) = true ∧
    wf (.handshakeStall 8 .security) = false ∧ wf (.dualRailCodeError 8 .security none) = false := by decide +kernel

theorem test_wf_refuses_copies : ([.staged 2048 0, .queued 8 0 0, .queued 0 8 0, .message 32 0, .replay 4 0, .held 8 0 0, .held 0 4 0] :
    List CopySite).all (fun x => !wf (.patrolScrubRead 0 ⟨true, [x]⟩)) = true ∧ wf (.patrolScrubRead 8 ⟨true, []⟩) = false ∧
    wf (.patrolScrubRead 7 ⟨true, [.staged 2047 31, .queued 7 7 15, .message 31 7, .replay 3 1023, .held 7 3 4095]⟩) = true := by decide +kernel

/-- A start with the parts that a check looks at. -/
def startOf (acks : List Nat) (n : Nat) (links : List (Nat × Bool)) (synced : List Nat) : StartEnv :=
  { acks, sfdp := none, readOk := true, answers := List.replicate n (some 0), links, synced }

theorem test_wf_refuses_starts : ([startOf [80] 37 [] [], startOf [] 36 [] [], startOf [] 37 [(32, false)] [], startOf [] 37 [] [8]] :
    List StartEnv).all (fun e => !wf (.startSequence e)) = true ∧ wf (.startSequence (startOf [79] 37 [(31, true)] [7])) = true := by decide +kernel

/-- Numbers at the ends of their ranges are well-formed. -/
theorem test_wf_accepts : ([.add 2047 0, .registerWrite (.host 31) 0 0, .hostRead 31 0 0 8, .pset (.ctx 2047) 7 1023, .reservedOpcode 0 0x15 0,
    .flowConsume (.dbg false) 63 7 0, .nakFlit 7 3 (flit 0xC 0), .counterClaim (.dbg true) 7 143, .deadTimeEnd 63 65535,
    .dualRailCodeError 7 (.events 1023 true) none] : List Instr).all wf = true := by decide +kernel


/-! ## States that meet the hypotheses of the statements -/

theorem ready_iff (s : State) (c : Nat) : Ready s c ↔ mayRun s c = true ∧ fetchOk s c = true ∧
    isBad s (c / 256) (posOf (fetchBlock s c)) = false ∧ ((getCtx s c).mid = true ∨ watchExec s c = (s, false)) ∧
    ((getCtx s c).mid = true ∨ slotTime s c 32 = true) :=
  ⟨fun h => ⟨h.runs, h.fetch, h.good, h.watch, h.time⟩, fun ⟨a, b, c, d, e⟩ => ⟨a, b, c, d, e⟩⟩

theorem bufferRead_iff (s : State) (c a n : Nat) : BufferRead s c a n ↔ a / 0x1000000 = c / 256 ∧ a % 0x1000000 < 0x400000 ∧
    checkAcc s (ctxAcc s c) a n false = 0 ∧ slotTime s c (slotNs a) = true ∧ txnFree s c 1 = true ∧
    (∀ x ∈ (getCtx s c).stores, overlaps x.addr.toNat x.size a n = false) ∧
    (getTile s (c / 256)).rebuild.contains (a % 0x1000000 / 4096) = false ∧ isBad s (c / 256) (tagPos + a % 0x1000000 / 4096) = false ∧
    isBad s (c / 256) (blockOf a) = false ∧ isLost s a = false :=
  ⟨fun h => ⟨h.tile, h.buffer, h.allowed, h.time, h.free, h.alone, h.settled, h.group, h.block, h.kept⟩,
   fun ⟨a, b, c, d, e, f, g, h, i, j⟩ => ⟨a, b, c, d, e, f, g, h, i, j⟩⟩

theorem postedStore_iff (s : State) (c a n v k : Nat) : PostedStore s c a n v k ↔
    isStaged c a = false ∧ (busWrite s (ctxAcc s c) a n v).2 = 0 ∧ slotTime s c (slotNs a) = true ∧
    (getCtx s c).stores.length + k ≤ 8 ∧ txnFree s c k = true :=
  ⟨fun h => ⟨h.posted, h.allowed, h.time, h.room, h.free⟩, fun ⟨a, b, c, d, e⟩ => ⟨a, b, c, d, e⟩⟩

theorem bufferStore_iff (s : State) (c : Nat) (x : Store) : BufferStore s c x ↔ x.addr.toNat / 0x1000000 = c / 256 ∧
    x.addr.toNat % 0x1000000 < 0x400000 ∧ (1 ≤ x.size ∧ x.addr.toNat % 8 + x.size ≤ 8) ∧
    checkAcc s (ctxAcc s c) x.addr.toNat (if [1, 2, 4, 8].contains x.size && x.addr.toNat % x.size == 0 then x.size else 1) true = 0 ∧
    isBad s (c / 256) (tagPos + x.addr.toNat % 0x1000000 / 4096) = false ∧ isBad s (c / 256) (blockOf x.addr.toNat) = false :=
  ⟨fun h => ⟨h.tile, h.buffer, h.width, h.allowed, h.group, h.block⟩, fun ⟨a, b, c, d, e, f⟩ => ⟨a, b, c, d, e, f⟩⟩

theorem goodBuffer_iff (s : State) (x : Acc) (t a n : Nat) (wr : Bool) : GoodBuffer s x t a n wr ↔ a / 0x1000000 = t ∧
    a % 0x1000000 < 0x400000 ∧ checkAcc s x a n wr = 0 ∧ (getTile s t).rebuild.contains (a % 0x1000000 / 4096) = false ∧
    isBad s t (tagPos + a % 0x1000000 / 4096) = false ∧ isBad s t (blockOf a) = false :=
  ⟨fun h => ⟨h.tile, h.buffer, h.allowed, h.settled, h.group, h.block⟩, fun ⟨a, b, c, d, e, f⟩ => ⟨a, b, c, d, e, f⟩⟩

theorem inOrder_iff (s : State) (t k : Nat) (fl : Flit) : InOrder s t k fl ↔ tileRuns s t = true ∧ k < 4 ∧ linkLive s t k = true ∧
    keyed s t fl = true ∧ fl.lseq = (getLink s (t * 4 + k)).expect ∧ fl.dst.toNat = t ∧ bypasses fl = false ∧
    getEseq s t (eseqKey fl) = { expect := fl.eseq } ∧ rxWaiting s t = 0 :=
  ⟨fun h => ⟨h.runs, h.port, h.live, h.keyed, h.lseq, h.dst, h.order, h.eseq, h.none⟩,
   fun ⟨a, b, c, d, e, f, g, h, i⟩ => ⟨a, b, c, d, e, f, g, h, i⟩⟩

/-- One function of parcel 1 with one unit of each kind of tile 0, and the whole buffer memory of the tile. -/
def desc : FnDesc :=
  { parcel := 1, ctxs := 1, ports := 1, pairs := 1, psqs := 1, tmrs := 1, pwms := 1, mbxs := 1, doorbells := [(0, 16)],
    regions := [{ tile := 0, first := 0, count := 16384, host := true }] }

def sched : Sched := { ctxs := [{ ctx := 0, eng := 0, cls := 0, prio := 0, budget := 0, clean := true }] }

/-- A context that runs. -/
def running : Ctx := { act := true, st := .active, resident := true, pc := 0x100 }

/-- The function is RUNNING, context 0 as given, the debugger has unlocked parcel 1 on every tile. -/
def on (x : Ctx) : State :=
  { begun := true, hdr := some { parcels := [(1, { hostGrant := 0xFFFFFFFF })], fns := [desc] }
    fns := [(0, { st := .running, everOn := true, sched := some sched })], tiles := [(0, { req := 0x3FF, ack := 0x3FF })]
    codeTag := [(4, { tag := 1 })], ctxs := [(0, x)], sec := { active := true, parcel := 1, scope := 7 } }

/-- The same with context 0 about to run at 0x100. -/
def base : State := on running

theorem wit_ElementOperationsWriteEveryElement : Ready base 0 ∧ (eOf (0 : BitVec 23) ≤ 4 ∧ fnOf (0 : BitVec 23) = 0) ∧
    eOf (0x400 : BitVec 23) = 4 ∧ fnOf (0x400 : BitVec 23) = 0 := by
  simp only [ready_iff]; decide +kernel

theorem wit_LogicOperationsActOnAllBits :
    Ready base 0 ∧ eOf (0x7F8000 : BitVec 23) = 0 ∧ fnOf (0x7F8000 : BitVec 23) = 0 ∧ rbOf (0x7F8000 : BitVec 23) = 0 := by
  simp only [ready_iff]; decide +kernel

theorem wit_ImmediateOperationsUseSignExtension : Ready base 0 := by simp only [ready_iff]; decide +kernel

theorem wit_ShiftsMoveEveryElement : Ready base 0 ∧ (eOf (0x400 : BitVec 23) ≤ 4 ∧ fnOf (0x400 : BitVec 23) = 0) ∧
    eOf (0x47F : BitVec 23) ≤ 4 ∧ rbOf (0x47F : BitVec 23) = 0 ∧ fnOf (0x47F : BitVec 23) = 127 := by
  simp only [ready_iff]; decide +kernel

theorem wit_LaneOperationsSelectAndCount : Ready base 0 ∧
    (eOf (0x40F : BitVec 23) ≤ 4 ∧ rbOf (0x40F : BitVec 23) = 0 ∧ fnOf (0x40F : BitVec 23) < 128 / widthOf (eOf (0x40F : BitVec 23)) ∧
      fnOf (0x40F : BitVec 23) = 15) ∧
    (rbOf (0x400 : BitVec 23) = 0 ∧ fnOf (0x400 : BitVec 23) = 0) ∧ eOf (0x800 : BitVec 23) = 0 ∧ fnOf (0x800 : BitVec 23) = 0 := by
  simp only [ready_iff]; decide +kernel

theorem wit_ComparesWriteOneOrZero : Ready base 0 ∧ eOf (0x400 : BitVec 23) = 4 ∧ fnOf (0x400 : BitVec 23) = 0 ∧
    4 < eOf (0x500 : BitVec 23) ∧ fnOf (0x401 : BitVec 23) ≠ 0 ∧ (getCtx base 0).stores = [] := by
  simp only [ready_iff]; decide +kernel

theorem wit_CheckOperationsTakeBytesInOrder : Ready base 0 ∧
    ([(0x01, 1, 0), (0x10, 16, 0), (0x21, 1, 1), (0x30, 16, 1)] : List (BitVec 23 × Nat × Nat)).all (fun f =>
      eOf f.1 == 0 && fnOf f.1 % 32 == f.2.1 && fnOf f.1 / 32 == f.2.2) = true := by
  simp only [ready_iff]; decide +kernel

theorem wit_SpecialReadsGiveStatusAndDatum : Ready base 0 ∧ (getCtx base 0).tb.length ≤ 32 ∧ fld (0x780000 : BitVec 23) 0 19 = 0 ∧
    [0x000, 0x001, 0x003, 0x004, 0x010, 0x011, 0x012, 0x013].all (fun n =>
      fld (BitVec.ofNat 23 n) 11 8 == 0 && selOf (BitVec.ofNat 23 n) == n) = true := by
  simp only [ready_iff]; decide +kernel

/-- Context 0 with V5 at the highest 16 bytes of tile 0's buffer memory. -/
def high : State := on { running with v := vset (Vector.replicate 16 0) 5 0x3FFFF0 }

theorem wit_LoadsReadOwnBufferMemory : Ready high 0 ∧ NoWatch high 0 ∧
    ((getV high 0 (raOf (0x28000 : BitVec 23))).setWidth 32 + ((0x28000 : BitVec 23).setWidth 15).signExtend 32 : Word).toNat = 0x3FFFF0 ∧
    (∀ n ∈ [1, 2, 4, 8], Unanswered high 0 0x3FFFF0 n) ∧
    (BufferRead high 0 0x3FFFF0 1 ∧ BufferRead high 0 0x3FFFF0 2 ∧ BufferRead high 0 0x3FFFF0 4) ∧
    BufferRead high 0 0x3FFFF0 8 ∧ 0x3FFFF0 % 16 = 0 := by
  simp only [ready_iff, bufferRead_iff, NoWatch, Unanswered]; decide +kernel

/-- The same in the middle of its load: the reads in `got` are answered. -/
def reading (got : List (Word × Nat × Option DWord)) : State :=
  on { running with v := vset (Vector.replicate 16 0) 5 0x3FFFF0, mid := true, got }

theorem wit_LoadsReadOwnBufferMemory_answered :
    (∀ n ∈ [1, 2, 4], Answered (reading [(0x3FFFF0, n, some 0x81)]) 0 0x3FFFF0 n 0x81) ∧
    Ready (reading []) 0 ∧
    (let s := reading [(0x3FFFF0, 8, some 3)]
     Ready s 0 ∧ NoWatch s 0 ∧ Answered s 0 0x3FFFF0 8 3 ∧ Unanswered s 0 0x3FFFF8 8 ∧ BufferRead s 0 0x3FFFF8 8) ∧
    (let s := reading [(0x3FFFF0, 8, some 3), (0x3FFFF8, 8, some 4)]; Answered s 0 0x3FFFF0 8 3 ∧ Answered s 0 0x3FFFF8 8 4) := by
  simp only [ready_iff, bufferRead_iff, NoWatch, Unanswered, Answered]; decide +kernel

/-- Context 0 with V5 at an address, in the middle of its load where reads are answered. -/
def loadAt (a : Nat) (mid : Bool) (got : List (Word × Nat × Option DWord)) : State :=
  on { running with v := vset (Vector.replicate 16 0) 5 (BitVec.ofNat 128 a), mid, got }

theorem wit_LoadsReadOwnBufferMemory_denied :
    (∀ a ∈ [0x3FFFF1, 0x600000, 0x1000101], Ready (loadAt a false []) 0 ∧ NoWatch (loadAt a false []) 0 ∧
      (getCtx (loadAt a false []) 0).stores = [] ∧ Unanswered (loadAt a false []) 0 a 4) ∧
    checkAcc (loadAt 0x3FFFF1 false []) (ctxAcc (loadAt 0x3FFFF1 false []) 0) 0x3FFFF1 4 false ≠ 0 ∧
    checkAcc (loadAt 0x3FFFF1 false []) (ctxAcc (loadAt 0x3FFFF1 false []) 0) 0x3FFFF1 8 false ≠ 3 ∧
    checkAcc (loadAt 0x600000 false []) (ctxAcc (loadAt 0x600000 false []) 0) 0x600000 8 false ≠ 0 ∧
    remoteCheck (loadAt 0x1000101 false []) 0 0x1000101 4 false ≠ 0 ∧
    (let s := loadAt 0x1000000 true [(0x1000000, 4, none)]
     Ready s 0 ∧ ((getCtx s 0).got.find? fun g => g.1.toNat == 0x1000000 && g.2.1 == 4).map (fun g => g.2.2) = some none ∧
      remoteDet s 0 0x1000000 4 = .exc 5) := by
  simp only [ready_iff, NoWatch, Unanswered]; decide +kernel

/-- A load of a Datum register and one of the other tile, to which the link is up. -/
theorem wit_LoadsReadOwnBufferMemory_others :
    (let s := loadAt 0x55F000 false []
     Ready s 0 ∧ NoWatch s 0 ∧ Unanswered s 0 0x55F000 4 ∧ checkAcc s (ctxAcc s 0) 0x55F000 4 false = 0 ∧ slotTime s 0 (slotNs 0x55F000) = true ∧
      txnFree s 0 1 = true ∧ badStore s 0 0x55F000 = none ∧ (busRead (drainFor s 0 0x55F000 4) (ctxAcc s 0) 0x55F000 4).2.1 = 0) ∧
    (let s := { loadAt 0x1000100 false [] with
       links := [(0, { st := .up }), (4, { st := .up })], tiles := [(0, { req := 0x3FF, ack := 0x3FF }), (1, { req := 0x3FF, ack := 0x3FF })] }
     Ready s 0 ∧ NoWatch s 0 ∧ Unanswered s 0 0x1000100 4 ∧ remoteCheck s 0 0x1000100 4 false = 0 ∧ txnFree s 0 1 = true ∧
      routeOf s 0 1 = some (0, none)) := by
  simp only [ready_iff, NoWatch, Unanswered]; decide +kernel

theorem wit_StoresArePostedInOrder_denied : Ready (loadAt 0x3FFFF1 false []) 0 ∧ NoWatch (loadAt 0x3FFFF1 false []) 0 ∧
    isStaged 0 0x3FFFF1 = false ∧ (busWrite (loadAt 0x3FFFF1 false []) (ctxAcc (loadAt 0x3FFFF1 false []) 0) 0x3FFFF1 4 0).2 ≠ 0 ∧
    0x3FFFF1 % 16 ≠ 0 ∧ checkAcc (loadAt 0x3FFFF1 false []) (ctxAcc (loadAt 0x3FFFF1 false []) 0) 0x3FFFF1 8 true ≠ 3 ∧
    (getCtx (loadAt 0x3FFFF1 false []) 0).stores = [] := by
  simp only [ready_iff, NoWatch]; decide +kernel

theorem wit_StoresArePostedInOrder : Ready high 0 ∧ NoWatch high 0 ∧
    ((getV high 0 (raOf (0x28000 : BitVec 23))).setWidth 32 + ((0x28000 : BitVec 23).setWidth 15).signExtend 32 : Word) = 0x3FFFF0 ∧
    (PostedStore high 0 0x3FFFF0 1 0 ∧ PostedStore high 0 0x3FFFF0 2 0 ∧ PostedStore high 0 0x3FFFF0 4 0) ∧
    PostedStore high 0 0x3FFFF0 8 0 2 ∧ 0x3FFFF0 % 16 = 0 ∧ (busWrite high (ctxAcc high 0) (0x3FFFF0 + 8) 8 0).2 = 0 := by
  simp only [ready_iff, postedStore_iff, NoWatch]; decide +kernel

/-- Context 0 with V5 at an address on the other tile, and as many entries in its traverse buffer. -/
def far (n : Nat) : State :=
  on { running with v := vset (Vector.replicate 16 0) 5 0x1000100, tb := List.replicate n { addr := 0, size := 1, data := 0 } }

theorem wit_StagedStoresEnterTraverseBuffer : Ready (far 31) 0 ∧ NoWatch (far 31) 0 ∧
    ((getV (far 31) 0 (raOf (0x28000 : BitVec 23))).setWidth 32 + ((0x28000 : BitVec 23).setWidth 15).signExtend 32 : Word) = 0x1000100 ∧
    (isStaged 0 0x1000100 = true ∧ [1, 2, 4, 8].all (fun n => stageCheck (far 31) 0 0x1000100 n 0 == 0) = true ∧ (getCtx (far 31) 0).tb.length < 32) ∧
    Ready (far 30) 0 ∧ NoWatch (far 30) 0 ∧ 0x1000100 % 16 = 0 ∧ stageCheck (far 30) 0 0x1000100 8 0 = 0 ∧
    stageCheck (far 30) 0 0x1000108 8 0 = 0 ∧ (getCtx (far 30) 0).tb.length < 31 ∧
    Ready (far 32) 0 ∧ (getCtx (far 32) 0).stores = [] ∧ stageCheck (far 32) 0 0x1000100 4 0 = 0 ∧ (getCtx (far 32) 0).tb.length = 32 ∧
    (let s := loadAt 0x1000101 false []; Ready s 0 ∧ NoWatch s 0 ∧ isStaged 0 0x1000101 = true ∧ stageCheck s 0 0x1000101 4 0 ≠ 0) := by
  simp only [ready_iff, NoWatch]; decide +kernel

/-- A store to the last doubleword of the buffer memory, and context 0 with it on its way. -/
def store8 : Store := { addr := 0x3FFFF8, size := 8, data := 0x0123456789ABCDEF }
def posting : State := on { running with stores := [store8] }

theorem wit_StoreCompletionWritesItsBytes : (getCtx posting 0).stores = store8 :: [] ∧ BufferStore posting 0 store8 ∧
    dueNow posting 0 store8.due = true ∧
    (let x := { store8 with due := some 1 }; let s := on { running with stores := [x] }
     (getCtx s 0).stores = x :: [] ∧ BufferStore s 0 x ∧ dueNow s 0 x.due = false) := by
  simp only [bufferStore_iff]; decide +kernel

theorem posting_stores : BufferStores posting 0 := by
  intro x h
  have h : x = store8 := by simpa using (show x ∈ [store8] from h)
  subst h
  simp only [bufferStore_iff]; decide +kernel

theorem wit_FencePerformsPostedStore : Ready posting 0 ∧ BufferStores posting 0 ∧ (getCtx posting 0).stores = [store8] :=
  ⟨by simp only [ready_iff]; decide +kernel, posting_stores, by decide +kernel⟩

theorem wit_BranchesFormTheirTargets : Ready base 0 ∧ rdOf (0x7FFFF : BitVec 23) = 0 ∧
    (rdOf (0x78000 : BitVec 23) = 0 ∧ rbOf (0x78000 : BitVec 23) = 0 ∧ selOf (0x78000 : BitVec 23) = 0) ∧
    rbOf (0x7F8000 : BitVec 23) = 0 ∧ selOf (0x7F8000 : BitVec 23) = 0 := by
  simp only [ready_iff]; decide +kernel

theorem wit_RepeatOfNothingOnlyFinishes : Ready base 0 ∧ (getV base 0 12).setWidth 32 = (0 : Word) ∧
    ([0x100, 0x300, 0x400] : List (BitVec 23)).all (fun f =>
      decide (1 ≤ eOf f) && decide (eOf f ≤ 4) && fnOf f == 0 && rdOf f == 0 && raOf f == 0 && rbOf f == 0) = true ∧
    eOf (0x300 : BitVec 23) = 3 ∧ eOf (0x400 : BitVec 23) = 4 ∧ fnOf (0x301 : BitVec 23) = 1 ∧ fnOf (0x402 : BitVec 23) = 2 := by
  simp only [ready_iff]; decide +kernel

/-- Context 0 with one element left, from 0x3FFFF8 to 0x200, in the middle of its repeat where reads are answered. -/
def last (mid : Bool) (got : List (Word × Nat × Option DWord)) : State :=
  on { running with v := vset (vset (vset (Vector.replicate 16 0) 12 1) 13 0x3FFFF8) 14 0x200, mid, got }

theorem wit_RepeatDoesItsLastElement : Ready (last false []) 0 ∧ NoWatch (last false []) 0 ∧ (getV (last false []) 0 12).setWidth 32 = (1 : Word) ∧
    (getCtx (last false []) 0).rep = {} ∧
    ([0x100, 0x300, 0x400] : List (BitVec 23)).all (fun f =>
      decide (1 ≤ eOf f) && decide (eOf f ≤ 4) && fnOf f == 0 && rdOf f == 0 && raOf f == 0 && rbOf f == 0) = true ∧
    (widthOf 1 = 64 ∧ widthOf 3 = 16 ∧ widthOf 4 = 8 ∧ eOf (0x300 : BitVec 23) = 3 ∧ eOf (0x400 : BitVec 23) = 4) ∧
    ((getV (last false []) 0 13).setWidth 32 : Word) = 0x3FFFF8 ∧
    [8, 2, 1].all (fun n => checkAcc (last false []) (ctxAcc (last false []) 0) 0x3FFFF8 n false == 0) = true ∧
    Unanswered (last false []) 0 0x3FFFF8 8 ∧ BufferRead (last false []) 0 0x3FFFF8 8 := by
  simp only [ready_iff, bufferRead_iff, NoWatch, Unanswered]; decide +kernel

theorem wit_RepeatDoesItsLastElement_answered :
    (let s := last true [(0x3FFFF8, 8, some 7), (0x200, 8, some 7)]
     Ready s 0 ∧ NoWatch s 0 ∧ (getV s 0 12).setWidth 32 = (1 : Word) ∧ (getCtx s 0).rep = {} ∧ Answered s 0 0x3FFFF8 8 7 ∧ Answered s 0 0x200 8 7 ∧
      [8, 2, 1].all (fun n => checkAcc s (ctxAcc s 0) 0x3FFFF8 n false == 0 && checkAcc s (ctxAcc s 0) 0x200 n false == 0) = true ∧
      ((getV s 0 14).setWidth 32 : Word) = 0x200 ∧ PostedStore s 0 0x200 8 7 ∧ PostedStore s 0 0x200 2 7 ∧ PostedStore s 0 0x200 1 7) ∧
    (0x200 % 0x1000000 < 0x500000 ∧ PostedStore (last false []) 0 0x200 8 0 ∧ PostedStore (last false []) 0 0x200 1 0) := by
  simp only [ready_iff, postedStore_iff, NoWatch, Answered]; decide +kernel

/-- V5 lane 0 is an address of the buffer memory; V0 lane 0 the datum. -/
theorem wit_PairedSlotsComputeTheirLane : (Ready base 0 ∧ NoWatch base 0 ∧ 15 < 16 ∧ 3 < 4) ∧
    (∀ n ∈ [4, 1], Ready (reading [(0x3FFFF0, n, some 0x81)]) 0 ∧ Answered (reading [(0x3FFFF0, n, some 0x81)]) 0 0x3FFFF0 n 0x81) ∧
    (let w : BitVec 31 := 0x0D144D89; pairOk w = true ∧ pairRule (slotA w) (slotB w) = 0 ∧ (slotA w).mem = false ∧ (slotB w).mem = false) := by
  simp only [ready_iff, NoWatch, Answered]; decide +kernel

theorem wit_PairedSlotsComputeTheirLane_memory :
    elem (getV high 0 5) 32 0 = 0x3FFFF0 ∧ Ready high 0 ∧ NoWatch high 0 ∧ ∀ n ∈ [4, 1],
      Unanswered high 0 0x3FFFF0 n ∧ BufferRead high 0 0x3FFFF0 n ∧ PostedStore high 0 0x3FFFF0 n 0 := by
  simp only [ready_iff, bufferRead_iff, postedStore_iff, NoWatch, Unanswered]; decide +kernel

/-- Context 0 with the task-state block at 0x80: about to enter a handler, or inside it. -/
def outside : State := on { running with tsbp := 0x80 }
def inside : State := on { running with exl := true, tsbp := 0x80 }

/-- The premises of `Excepts`: of an entry in `outside`, of an activation's end in `inside`. -/
theorem wit_excepts :
    ((getCtx outside 0).exl = false ∧ tsbOk outside 0 = true ∧ outside.badBlk = [] ∧ powered outside 0 domBUF = true ∧
      anyLost outside ((getCtx outside 0).tsbp.toNat + 0x18) 8 = false ∧ (getCtx outside 0).stores = []) ∧
    (getCtx inside 0).exl = true ∧ tsbOk base 0 = false ∧ oldestHeld inside 0 = none ∧ (getCtx inside 0).st = .active ∧
      ctxParcel inside 0 = 1 ∧ bit (rg inside (ta 0 (0x500800 + ctxParcel inside 0 * 16))) 31 = false ∧ (getCtx inside 0).stores = [] := by
  decide +kernel

/-- Pairs that break rules 1, 2, 3 and 4 of R243, each alone or as the lowest. -/
def badPairs : List (BitVec 31 × Nat) :=
  [(BitVec.ofNat 31 (0x03 * 2 ^ 26 + 0x03 * 2 ^ 10), 1), (BitVec.ofNat 31 (0x03 * 2 ^ 26 + 0x03 * 2 ^ 10 + 2 ^ 6), 2),
   (BitVec.ofNat 31 (0x18 * 2 ^ 26 + 2 ^ 22 + 0x18 * 2 ^ 10 + 2 * 2 ^ 6 + 12), 3), (BitVec.ofNat 31 (0x1C * 2 ^ 26), 4)]

theorem wit_BrokenPairRaisesPairHazard : Ready outside 0 ∧ Ready inside 0 ∧ (getCtx outside 0).stores = [] ∧
    badPairs.all (fun x => let a := slotA x.1; let b := slotB x.1
      pairOk x.1 && (if a.writes && b.writes && a.rd == b.rd then 1 else if a.writes && b.reads a.rd then 2 else if a.mem && b.mem then 3
        else if a.branch then 4 else 0) == x.2) = true := by
  simp only [ready_iff]; decide +kernel

/-- Context 0 with an entry in its traverse buffer. -/
def staging : State := on { running with tb := [{ addr := 0x510000, size := 4, data := 16 }] }

theorem no_stores (s : State) (c : Nat) (h : (getCtx s c).stores = []) : BufferStores s c := fun x hx => by rw [h] at hx; cases hx

/-- Context 0 is the hard context of pair 0, whose frames are as given. -/
def hardSched : Sched :=
  { ctxs := [{ ctx := 0, eng := 0, cls := 1, prio := 0, budget := 0, clean := true }], pairs := [{ pair := 0, ctx := 0, budget := 0, clean := true }] }
def hardOn (x : Ctx) (k : Pair) : State :=
  { on x with fns := [(0, { st := .running, everOn := true, sched := some hardSched })], pairs := [(0, k)] }

/-- A frame of 20 bytes of which chunk 0 is released and chunk 1 complete. -/
def chunked : PairFrame :=
  { bytes := List.replicate 20 0xA5, tsin := 0, tsout := 0, delta := 0, bt := 8, fwd := true, owed := true, served := true, complete := 2,
    released := 1, next := 1, doneAt := [0, 0] }

theorem wit_CommitTakesSnapshotAndReleases : (Ready staging 0 ∧ BufferStores staging 0 ∧ (getCtx staging 0).rel ++ (getCtx staging 0).tb ≠ []) ∧
    (Ready base 0 ∧ BufferStores base 0 ∧ (getCtx base 0).rel ++ (getCtx base 0).tb = [] ∧
      ¬(((fnOfCtx base 0).map (fnState base)).getD .unloaded = .draining ∧ (getCtx base 0).restart = false) ∧ oldestHeld base 0 = none ∧
      pairsOfCtx (hardOn running {}) 0 = [0]) ∧
    (let s := { base with fns := [(0, { st := .draining, everOn := true, sched := some sched })] }
     Ready s 0 ∧ BufferStores s 0 ∧ ((fnOfCtx s 0).map (fnState s)).getD .unloaded = .draining ∧ (getCtx s 0).restart = false) ∧
    (let s := { base with srcs := [(16, { act := true, holder := some 0 })] }
     Ready s 0 ∧ (getSrc s 16).act = true ∧ (getSrc s 16).holder = some (0 % 256) ∧ 16 / 1024 = 0 / 256) ∧
    (let s := hardOn running { frames := [{ chunked with held := true }] }
     Ready s 0 ∧ BufferStores s 0 ∧ oldestHeld s 0 = some (0, 0) ∧ isRunning s (fnOfCtx s 0) = true) := by
  simp only [ready_iff]
  exact ⟨⟨by decide +kernel, no_stores _ _ rfl, by decide +kernel⟩, ⟨by decide +kernel, no_stores _ _ rfl, by decide +kernel⟩,
    ⟨by decide +kernel, no_stores _ _ rfl, by decide +kernel⟩, by decide +kernel, by decide +kernel, no_stores _ _ rfl, by decide +kernel⟩

/-- Context 0 with the task-state block at 0x80; NSAVE is 7, taken as 4; HVEC is 0x40, the saved status word has privilege 3. -/
def blocked (x : Ctx) : State :=
  { on { x with tsbp := 0x80, priv := 2 } with mem := [(0x84, 0x01), (0x85, 0x0C), (0x98, 0x40), (0x9C, 0x73)] }

theorem wit_TrapEntersHandler : Ready outside 0 ∧ fld (0x7FF : BitVec 23) 11 12 = 0 ∧ (getCtx outside 0).stores = [] ∧
    ∀ e ∈ ([{ cause := 6, detail := 2047, addr := 0, epc := 0x104, vec := none }, { cause := 8, detail := 16, addr := 0, epc := 0x100, vec := some 0x80 }] :
      List Entering), let s := blocked { running with st := .stalled, exent := true, entering := some e, wait := .entry none }
      (getCtx s 0).entering = some e ∧ (getCtx s 0).wait = .entry none ∧ dueNow s 0 none = true ∧ (getCtx s 0).st = .stalled ∧ s.badBlk = [] ∧
      powered s 0 domBUF = true ∧ e.cause < 2 ^ 32 ∧ e.detail < 2 ^ 32 ∧ (getCtx s 0).tsbp.toNat % 128 = 0 := by
  simp only [ready_iff]; decide +kernel

theorem wit_ReturnRestoresSavedState :
    (let s := blocked { running with exl := true }
     Ready s 0 ∧ (getCtx s 0).exl = true ∧ tsbOk s 0 = true ∧ (getCtx s 0).stores = [] ∧ s.badBlk = [] ∧ anyLost s 0x80 128 = false ∧
      Unanswered s 0 0x80 8 ∧ slotTime s 0 64 = true) ∧
    (let s := blocked { running with exl := true, ecause := 8, isrc := 16, mid := true, got := [(0x80, 8, some 0xC0100000104)] }
     Ready s 0 ∧ tsbOk s 0 = true ∧ (getCtx s 0).stores = [] ∧ anyLost s 0x80 128 = false ∧ Answered s 0 0x80 8 0xC0100000104 ∧
      powered s 0 domBUF = true ∧ (ceiling s (ctxParcel s 0)).toNat ≤ (0xC0100000104 : DWord).toNat / 2 ^ 32 / 1024 % 4 ∧
      (getCtx s 0).ecause = 8 ∧ 0x80 = (getCtx s 0).tsbp.toNat) := by
  simp only [ready_iff, Unanswered, Answered]; decide +kernel

theorem wit_TrapsAndUndefinedFormsRaiseTheirException : Ready inside 0 ∧ Ready outside 0 ∧ (getCtx inside 0).stores = [] ∧
    (getCtx outside 0).stores = [] ∧ brkHalts inside 0 = false ∧ fld (0x7FF : BitVec 23) 11 12 = 0 ∧ fld (0x800 : BitVec 23) 11 12 ≠ 0 ∧
    (getCtx outside 0).exl = false ∧ 4 < eOf (0x500 : BitVec 23) ∧ eOf (0x100 : BitVec 23) ≠ 0 ∧ fnOf (0x80 : BitVec 23) = 128 ∧
    (eOf (0x408 : BitVec 23) ≤ 4 ∧ 128 / widthOf (eOf (0x308 : BitVec 23)) ≤ fnOf (0x308 : BitVec 23)) ∧ fnOf (0x10 : BitVec 23) = 16 ∧
    (fnOf (0x11 : BitVec 23) % 32 = 17 ∧ fnOf (0x40 : BitVec 23) = 64 ∧ fnOf (0x20 : BitVec 23) % 32 = 0) ∧
    (fnOf (0x401 : BitVec 23) = 1 ∧ eOf (0x401 : BitVec 23) ≠ 3) ∧ rdOf (0x780000 : BitVec 23) ≠ 0 ∧ raOf (0x78000 : BitVec 23) ≠ 0 ∧
    rbOf (0x7800 : BitVec 23) ≠ 0 ∧ (selOf (2 : BitVec 23) = 2 ∧ selOf (32 : BitVec 23) = 32) ∧ fld (1 : BitVec 23) 0 19 ≠ 0 := by
  simp only [ready_iff]; decide +kernel

/-- Context 0 at privilege 1 with V2 at the highest task-state block, and the events as given, bound to it. -/
def special (priv : BitVec 2) (v2 : Vec) (srcs : List (Nat × Src)) : State :=
  { on { running with priv, tsbp := 0x80, v := vset (Vector.replicate 16 0) 2 v2 } with srcs, regs := [(ta 0 0x516000, 0)] }

theorem wit_SpecialWritesChangeTheirRegister :
    ([0x10000, 0x10001, 0x10020] : List (BitVec 23)).all (fun f => rdOf f == 0 && rbOf f == 0 && raOf f == 2) = true ∧
    (let s := special 1 0x3FFF80 []
     let u := next4 (modCtx s 0 fun y => { y with ie := true, rpt := false }) 0
     Ready s 0 ∧ selOf (0x10000 : BitVec 23) = 0 ∧ bit ((getV s 0 2).setWidth 32 : Word) 8 = true ∧ insideWinner u 0 = none ∧
      (getCtx s 0).exl = false ∧ (getCtx u 0).haltReq = .none) ∧
    (let s := special 1 0x3FFF80 [(16, { pend := true, loaded := true, prio := 0xFF })]
     let u := next4 (modCtx s 0 fun y => { y with ie := true, rpt := false }) 0
     Ready s 0 ∧ insideWinner u 0 = some 16 ∧ (getCtx u 0).haltReq = .none ∧ (getCtx s 0).stores = [] ∧ s.badBlk = [] ∧
      anyLost s ((getCtx s 0).tsbp.toNat + 0x18) 8 = false) ∧
    (let s := special 1 0x3FFF80 []
     selOf (0x10001 : BitVec 23) = 1 ∧ (getCtx s 0).priv.toNat = 1 ∧ tsbpOk s 0 ((getV s 0 2).setWidth 32) = true) ∧
    (Ready (special 2 0 []) 0 ∧ 2 ≤ (getCtx (special 2 0 []) 0).priv.toNat ∧ (getCtx (special 2 0 []) 0).stores = []) ∧
    (Ready (special 1 0x400000 []) 0 ∧ tsbpOk (special 1 0x400000 []) 0 ((getV (special 1 0x400000 []) 0 2).setWidth 32) = false) ∧
    (selOf (0x10020 : BitVec 23) = 0x20 ∧ wdCounts (special 1 0 []) (ctxParcel (special 1 0 []) 0) = true ∧
      (let s := { base with hdr := some { parcels := [(1, {})], fns := [{ desc with ctxs := 3 }] }, ctxs := [(0, running), (1, { st := .halted })] }
       Ready s 0 ∧ wdCounts s (ctxParcel s 0) = false)) := by
  simp only [ready_iff]; decide +kernel

/-- Context 0 with its sequencer's FIFOs as given. -/
def fifos (tx rx : List Word) : State := { base with seqs := [(0, { tx, rx })] }

theorem wit_SequencerAccessUsesFifos :
    (Ready (fifos (List.replicate 7 1) []) 0 ∧ seqReach (fifos (List.replicate 7 1) []) 0 0 = 0 ∧ (getSeq (fifos (List.replicate 7 1) []) 0).tx.length = 7 ∧
      (getSeq (fifos (List.replicate 7 1) []) 0).rx = []) ∧
    (Ready (fifos (List.replicate 8 1) [5]) 0 ∧ seqReach (fifos (List.replicate 8 1) [5]) 0 0 = 0 ∧
      (getSeq (fifos (List.replicate 8 1) [5]) 0).tx.length = 8 ∧ (getSeq (fifos (List.replicate 8 1) [5]) 0).rx = 5 :: []) ∧
    rbOf (0x780000 : BitVec 23) = 0 ∧ selOf (0x780000 : BitVec 23) = 0 ∧ raOf (0x780000 : BitVec 23) = 0 := by
  simp only [ready_iff]; decide +kernel

/-- Context 0 serves a frame of pair 0, a chunk of it current. -/
def hard (f : PairFrame) (cur : Option Nat) : State := hardOn running { frames := [f], serving := true, cur }

theorem wit_SchussAccessReadsAndReplacesChunks :
    (fld (0x780000 : BitVec 23) 11 8 = 0 ∧ selOf (0x780000 : BitVec 23) = 0 ∧ fld (0x780001 : BitVec 23) 11 8 = 0 ∧ selOf (0x780001 : BitVec 23) = 1 ∧
      rbOf (0x788000 : BitVec 23) = 0 ∧ selOf (0x788000 : BitVec 23) = 0) ∧
    (let s := hardOn running {}
     Ready s 0 ∧ hardPair s 0 = some 0 ∧ pairReach s 0 = 0 ∧ servedIdx s 0 = none) ∧
    (∀ x ∈ ([({ chunked with released := 1 }, some 1), (chunked, none), (chunked, some 0), ({ chunked with abandoned := true }, none),
        ({ chunked with control := true }, none), ({ chunked with complete := 1 }, none),
        ({ chunked with released := 2 }, some 1)] : List (PairFrame × Option Nat)),
      let s := hard x.1 x.2
      Ready s 0 ∧ hardPair s 0 = some 0 ∧ pairReach s 0 = 0 ∧ servedIdx s 0 = some 0 ∧ (getPair s 0).frames[0]? = some x.1 ∧ (getPair s 0).cur = x.2) ∧
    (max chunked.next chunked.released = 1 ∧ 1 < chunked.chunks ∧ 1 < chunked.complete ∧ chunked.abandoned = false ∧ chunked.control = false) ∧
    (let f := { chunked with complete := 1 }; max f.next f.released < f.chunks ∧ f.complete ≤ max f.next f.released) ∧
    (let f := { chunked with released := 2 }; f.chunks ≤ max f.next f.released) := by
  simp only [ready_iff]; decide +kernel

/-- The microword of the statement, and a decode entry for customer opcode 31 that starts at it and lets privilege 2 through. -/
def moveWord : BitVec 160 := BitVec.ofNat 160 (6 * 2 ^ 144 + 2 ^ 133 + 2 ^ 124 + 2 ^ 117 + 15 * 2 ^ 113)
def custom : State :=
  { on { running with priv := 2 } with
    dec := [(decKey 0 0 31, { w := fields [(31, 1, 1), (29, 2, 2), (25, 4, 1), (13, 3, 7), (0, 13, 0x1FFF)], fn := some 0 })]
    wstore := [(uwKey 0 0 0x7FF, { w := moveWord, tag := 1, fn := some 0 })] }

theorem wit_CustomerInstructionOfOneMicroword : Ready custom 0 ∧ (getCtx custom 0).micro = none ∧ engOf custom 0 / 4 = 0 ∧
    isBad custom 0 (posOf (wsBlock 0 (683 + 31 / 16))) = false ∧ isBad custom 0 (posOf (wsBlock 0 ((0x1FFF - 0x1800) / 3))) = false ∧
    (let d := (getDec custom (decKey 0 0 31)).w
     bit d 31 = true ∧ fld d 29 2 = 2 ∧ fld d 25 4 = ctxParcel custom 0 ∧ (getCtx custom 0).priv.toNat ≤ 2 ∧ fld d 13 3 = 7 ∧
      fld d 0 13 = 0x1FFF) ∧
    (getUWord custom (uwKey 0 0 0x7FF)).tag.toNat = ctxParcel custom 0 ∧ (getUWord custom (uwKey 0 0 0x7FF)).w = moveWord ∧
    (getCtx custom 0).tb.length ≤ 32 ∧ (getCtx custom 0).stores.length ≤ 8 := by
  simp only [ready_iff]; decide +kernel

/-- Context 0 IDLE, with event 16 bound to it and pending. -/
def called : State :=
  { on { resident := true, st := .idle } with srcs := [(16, { pend := true, loaded := true })], regs := [(ta 0 0x511104, 0x00012345)] }

/-- Context 0 in an activation, in the state as given, with event 16 of a higher group waiting for it. -/
def calling (x : Ctx) : State :=
  { on { x with ie := true, tsbp := 0x80 } with srcs := [(16, { pend := true, loaded := true, prio := 0xFF })], regs := [(ta 0 0x516000, 0)] }

theorem wit_EventStartsActivationAtItsVector :
    (engReady called 0 = true ∧ (getCtx called 0).st = .idle ∧ (getCtx called 0).resident = true ∧
      isRunning called (fnOfCtx called 0) = true ∧ ctxWinner called 0 = some 16) ∧
    (let s := calling running; let x := getCtx s 0
     engReady s 0 = true ∧ ((x.st = .ready ∨ x.st = .active ∨ x.st = .stalled) ∧ x.mid = false ∧ x.stopped = false ∧ x.wait ≠ .release ∧
       x.haltReq = .none ∧ (x.stepping = true → x.stepEv = true)) ∧ insideWinner s 0 = some 16 ∧ x.stores = [] ∧ s.badBlk = [] ∧
       powered s 0 domBUF = true ∧ anyLost s (x.tsbp.toNat + 0x18) 8 = false) ∧
    engReady { called with engs := [(0, { locked := true })] } 0 = false ∧
    (let s := { called with srcs := [] }; (getCtx s 0).st = .idle ∧ ctxWinner s 0 = none) ∧
    (getCtx (on { st := .idle }) 0).resident = false ∧ isRunning { called with fns := [] } (fnOfCtx called 0) = false ∧
    (let s := calling { running with mid := true }; (getCtx s 0).st ≠ .idle ∧ (getCtx s 0).mid ≠ false) ∧ insideWinner base 0 = none := by
  decide +kernel

/-- Context 0 STALLED, waiting as given. -/
def stalledOn (wait : Wait) : State := on { running with st := .stalled, wait }

theorem wit_WaitsEndWhenTheirCauseEnds :
    (∀ w ∈ [Wait.answered 0x100 8 none none, .answered 0x100 8 (some 5) (some 0), .answered 0x100 8 none (some 1), .resend 3],
      (getCtx (stalledOn w) 0).wait = w ∧ (getCtx (stalledOn w) 0).st = .stalled) ∧
    (dueNow base 0 (some 0) = true ∧ dueNow base 0 (some 1) = false) ∧
    (let s := { stalledOn (.resend 3) with tiles := [(0, { req := 0x3FF, ack := 0x3FF, resend := [(3, 0)] })] }
     ((getTile s 0).resend.any fun y => y.1 == 3) = true ∧ ((getTile base 0).resend.any fun y => y.1 == 3) = false) ∧
    (let x : Store := { addr := 0x510000, size := 4, data := 16 }
     ∀ l ∈ [[x, x], [x]],
       let s := on { running with st := .stalled, wait := .release, rel := l }
       (getCtx s 0).rel = x :: l.tail ∧ x.addr.toNat = ta 0 0x510000 ∧ x.size = 4 ∧ checkAcc s (ctxAcc s 0) x.addr.toNat 4 true = 0 ∧
        doorbellOk s (ctxAcc s 0) 0 (x.data.toNat % 1024) = true ∧ x.bad = false ∧ (getCtx s 0).act = true ∧ (getCtx s 0).ending = false ∧
        ((fnOfCtx s 0).map (fnState s)).getD .unloaded ≠ .draining) ∧
    (getTile { base with tiles := [(0, { req := 0x3FF, ack := 0x3FF, rebuild := [1023] })] } 0).rebuild.contains 1023 = true := by
  decide +kernel

/-- Parcel 1 is quiet, and no event waits. -/
def quieted : State := { base with hdr := some { parcels := [(1, { quiet := true })], fns := [desc] } }

theorem winnerOf_nothing (s : State) (h : s.srcs = []) (d : Nat) : ctxWinner s d = none := by
  simp [ctxWinner, winnerOf, h]

theorem wit_SlotStartRunsChosenContext : slotMode quieted 0 0 = true ∧ (∀ d, ctxWinner quieted d = none) ∧ pick quieted 0 0 = some 0 ∧
    ∀ d ∈ residents quieted 0 0, (getCtx quieted d).st = .active → (getCtx quieted 0).st ≠ .active ∨ d = 0 :=
  ⟨by decide +kernel, winnerOf_nothing _ rfl, by decide +kernel, by decide +kernel⟩

/-- Context 0 HALTED, with lanes 0 to 2 of a window's datum held for V15. -/
def halted : State := on { running with st := .halted, vsel := 15, vheld := [(0, 1), (1, 2), (2, 3)] }

theorem wit_WindowWritesChangeHaltedContext : (∀ i, i < 5 → isBad halted 0 (ctxPos 0 + i) = false) ∧
    (MayWrite halted (.dbg true) (winA 0 0x04) 0x901 ∧ fld (0x901 : Word) 10 2 = 2 ∧ (ceiling halted (ctxParcel halted 0)).toNat ≤ 2) ∧
    (MayWrite halted (.dbg true) (winA 0 0x0C) 0x3FFF80 ∧ tsbpOk halted 0 0x3FFF80 = true) ∧
    MayWrite halted (.dbg true) (winA 0 0x3C) 4 ∧ (getCtx halted 0).vheld = [(0, 1), (1, 2), (2, 3)] := by
  unfold MayWrite; decide +kernel

theorem wit_RefusedRegisterAccessHasNoEffect : reaches base (.dbg true) ((0x5FFFFC : Word).toNat / 0x1000000) = true ∧
    checkAcc base (agentAcc base (.dbg true) 0x5FFFFC 0) 0x5FFFFC 4 true ≠ 0 ∧
    checkAcc base (agentAcc base (.dbg true) 0x5FFFFC 0) 0x5FFFFC 4 false ≠ 0 ∧
    ¬reaches base (.dbg true) ((0x80000000 : Word).toNat / 0x1000000) = true := by decide +kernel

/-- The debugger has unlocked parcel 0, the system's. -/
def sys : State := { base with sec := { active := true, parcel := 0, scope := 7 } }

theorem wit_AccessCodesDecideWhatAnAccessChanges : MayWrite base (.dbg true) (qa 0 0x18) 0xFFFFFFFF ∧ MayRead sys (.dbg true) (ta 0 0x580010) ∧
    (agentAcc sys (.dbg true) (ta 0 0x580010) 0).effect = true ∧ badStore sys 0 0x580010 = none := by
  unfold MayWrite MayRead; decide +kernel

/-- The registers of that witness have no effect of their own: PSQ0_CMPVAL, and FLT_CNT. -/
theorem wit_AccessCodesDecideWhatAnAccessChanges_plain :
    (∃ d, regDesc base (agentAcc base (.dbg true) (qa 0 0x18) 0xFFFFFFFF) 0 (qa 0 0x18) = some d ∧
      ∀ u, regWrite u d (agentAcc base (.dbg true) (qa 0 0x18) 0xFFFFFFFF) 0 (qa 0 0x18) 0xFFFFFFFF false =
        (plainWrite u d (qa 0 0x18) 0xFFFFFFFF, .ok)) ∧
    (∃ d, regDesc sys (agentAcc sys (.dbg true) 0x580010 0) 0 0x580010 = some d ∧ d.staged = false ∧
      ∀ u, regRead u d (agentAcc sys (.dbg true) 0x580010 0) 0 0x580010 = plainRead u d (agentAcc sys (.dbg true) 0x580010 0) 0x580010) ∧
    0x500000 ≤ qa 0 0x18 ∧ ¬isPmcCfg (qa 0 0x18) ∧ ¬isPmcCfg 0x580010 :=
  ⟨⟨_, rfl, fun _ => rfl⟩, ⟨_, rfl, rfl, fun _ => rfl⟩, by decide, by rintro ⟨t, i, h, e⟩; simp only [qa, ta] at e; omega,
    by rintro ⟨t, i, h, e⟩; simp only [ta] at e; omega⟩

/-- Event 16 goes to the host and is pending; with `act`, it has been claimed. -/
def forHost (act : Bool) : State := { base with srcs := [(16, { pend := !act, act, loaded := true, host := true })] }

theorem wit_EventRegistersMoveTheirSource :
    (fld (16 : Word) 0 10 = 16 ∧ MayWrite base (.dbg true) (ta 0 0x510000) 16 ∧ doorbellOk base (agentAcc base (.dbg true) (ta 0 0x510000) 16) 0 16 = true) ∧
    MayWrite base (.dbg true) (ta 0 (0x511008 + 16 * 16)) 0x10 ∧ MayWrite base (.dbg true) (ta 0 (0x511008 + 16 * 16)) 0x20 ∧
    (MayRead (forHost false) (.host 31) (ta 0 (0x510100 + 16 * 1)) ∧
      (agentAcc (forHost false) (.host 31) (ta 0 (0x510100 + 16 * 1)) 0).effect = true ∧ hostWinner (forHost false) 0 1 = some 16) ∧
    MayWrite (forHost true) (.host 31) (ta 0 (0x510104 + 16 * 1)) 16 ∧ srcExists 0 16 = true ∧ srcOwner (forHost true) 0 16 = 1 ∧
      (getSrc (forHost true) 16).act = true ∧ (getSrc (forHost true) 16).holder = none := by
  unfold MayWrite MayRead; decide +kernel

/-- Host 1 has an open message of 15 words for mailbox 0, which holds seven. -/
def writing : State :=
  { base with hp := { stat := [(1, { open_ := some (0, List.replicate 15 1) })] }
              mbxs := [(0, { msgs := List.replicate 7 { words := [1], stamp := 0, seq := 3 }, seq := 10 })] }

theorem wit_MailboxesQueueClosedMessages :
    (MayWrite base (.host 1) (mbxA 0 0x10) 5 ∧ openMsg base (agentAcc base (.host 1) (mbxA 0 0x10) 5) = none) ∧
    (MayWrite writing (.host 1) (mbxA 0 0x14) 5 ∧
      openMsg writing (agentAcc writing (.host 1) (mbxA 0 0x14) 5) = some (0, List.replicate 15 1) ∧
      0 / 32 = homeOf (agentAcc writing (.host 1) (mbxA 0 0x14) 5) ∧ (getMbx writing 0).msgs.length = 7) ∧
    (MayWrite writing (.dbg true) (mbxA 0 0x18) 3 ∧ (getMbx writing 0).msgs.head? = some { words := [1], stamp := 0, seq := 3 } ∧
      fld (3 : Word) 0 16 = 3 ∧ MayWrite writing (.dbg true) (mbxA 0 0x18) 4) ∧
    MayWrite writing (.dbg true) (mbxA 0 0x1C) 1 ∧ mbxClassL writing 0 = false := by
  unfold MayWrite; decide +kernel

/-- Lock 1 of tile 0 held by host 1. -/
def held : State := { base with locks := [(1, (agentAcc base (.host 1) (ta 0 0x521100) 1).ident)] }

theorem wit_LocksHaveOneHolder :
    (MayRead held (.host 1) (ta 0 0x521000) ∧ (agentAcc held (.host 1) (ta 0 0x521000) 0).effect = true ∧ getLock held 0 = 0) ∧
    (MayRead held (.dbg true) (ta 0 0x521004) ∧ (agentAcc held (.dbg true) (ta 0 0x521004) 0).effect = true ∧ getLock held 1 ≠ 0 ∧
      getLock held 1 ≠ (agentAcc held (.dbg true) (ta 0 0x521004) 0).ident ∧ getLock held 1 = (agentAcc held (.host 1) (ta 0 0x521004) 0).ident) ∧
    (MayWrite held (.host 1) (ta 0 0x521100) 1 ∧ fld (1 : Word) 0 6 = 1 ∧
      allows held (agentAcc held (.host 1) (ta 0 0x521100) 1) 0 (lockOwner held 1) rSWHD true = true ∧
      getLock held 1 = (agentAcc held (.host 1) (ta 0 0x521100) 1).ident) ∧
    MayWrite held (.dbg true) (ta 0 0x521104) 1 ∧ dbgHolds held 0 (lockOwner held 1) 2 = true := by
  unfold MayWrite MayRead; decide +kernel

/-- A response waits, taken from the port for 4 µs and more. -/
def answered : HostResp := { req := { rid := 31, tag := 7, wr := false, addr := 0, size := 4, data := 0 }, err := false, rd := 5, at_ := 0 }
def replying : State := { base with hp := { resp := [answered] }, tiles := [(0, { req := 0x3FF, ack := 0x3FF, ns := 4000 })] }

/-- A request to tile 0 still waits for its answer. -/
def busyPort : State :=
  { base with hp := { out := [{ req := { rid := 31, tag := 3, wr := false, addr := 0, size := 4, data := 0 }, tag := 0, done := some (0, false) }] } }

theorem wit_HostRequestsAreAnsweredInOrder :
    ((busyPort.hp.out.any fun x => x.req.tile == 0) = true ∧ (base.hp.out.any fun x => x.req.tile == 0) = false) ∧
    (base.kpTest = false ∧ base.hp.held = [] ∧ isBad base 0 (tagPos + 0x3FFFF8 / 4096) = false ∧ isBad base 0 (blockOf 0x3FFFF8) = false ∧
      (getTile base 0).rebuild.contains (0x3FFFF8 / 4096) = false ∧ isLost base 0x3FFFF8 = false ∧
      ([{ rid := 31, tag := 31, wr := false, addr := 0x3FFFF8, size := 8, data := 0 },
        { rid := 31, tag := 31, wr := true, addr := 0x3FFFF8, size := 8, data := 9 }] : List HostReq).all (fun r =>
          !hostBlocked base r && checkAcc base (hostAcc base r) 0x3FFFF8 8 r.wr == 0) = true) ∧
    (replying.hp.resp = answered :: [] ∧ replying.hp.held = [] ∧ answered.req.rid < 32 ∧
      atOrAfter (now replying 0) (answered.at_ + 4000) = true) := by decide +kernel

/-- Context 1 is one of parcel 0, the system's. -/
def kept : State :=
  { base with hdr := some { parcels := [(0, {}), (1, { hostGrant := 0xFFFFFFFF })], fns := [desc, { parcel := 0, ctxs := 2 }] }
              ctxs := [(0, running), (1, { priv := 0 })] }

theorem wit_DatumFollowsReferenceAndPaceIsWatched : (1 < kept.nTiles ∧ kept.begun = true) ∧
    bit (rg (setRg kept (ta 1 0x55F014) 1) (ta 1 0x55F014)) 0 = true ∧ powered kept 0 domBUF = true ∧
    (MayWrite kept (.ctx 1) (ta 0 0x55F010) 1024000001 ∧ MayWrite kept (.ctx 1) (ta 0 0x55F010) 0xC2F6FFFF) ∧
    powered kept 0 (domQ 3) = true ∧
    (let s := { kept with tiles := [(0, { req := 0x3FF, ack := 0x3FF, paceNew := 8, goodWin := #v[0, 0, 7, 0] })], regs := [(ta 0 0x55F020, 500)] }
     powered s 0 (domQ 3) = true ∧ bit (getTile s 0).paceNew 3 = true ∧ bit (getTile s 0).paceNew 2 = false ∧ fld (rg s (ta 0 0x55F020)) 0 10 = 500 ∧
      min 499 1023 < 500 ∧ 500 + fld (rg s (ta 0 0x55F020)) 12 4 ≤ min 1023 1023 ∧ 7 ≤ vget 0 (getTile s 0).goodWin 2) ∧
    (MayWrite kept (.ctx 1) (ta 0 0x55F020) 399 ∧ MayWrite kept (.ctx 1) (ta 0 0x55F020) 400) ∧
    (let s := setRg kept (ta 0 0x55F020) 400
     MayWrite s (.ctx 1) (ta 0 0x55F020) ((rg s (ta 0 0x55F020) &&& 0x1F3FF) ||| 0x20000) ∧ fld (rg s (ta 0 0x55F020)) 0 10 = 400) := by
  unfold MayWrite; decide +kernel

/-- Parcel 1 has a flash area of one sector; the port is host 1's, on its last page; the command as given. -/
def flashing (cmd : Option NvmCmd) : State :=
  { base with hdr := some { parcels := [(1, { hostGrant := 0xFFFFFFFF, areaBase := 0x20000, areaSize := 0x1000 })], fns := [desc] }
              nvm := { owner := (agentAcc base (.host 1) 0x500020 1).ident, cmd }, regs := [(0x500024, 0x20F)] }

/-- A command of the present owner on that page. -/
def command (op : BitVec 2) (issued : Bool) : NvmCmd := { op, page := 0x20F, gran := 16383, by_ := (flashing none).nvm.owner, issued }

theorem wit_FlashPortServesItsOwner :
    (let s := { flashing none with nvm := {} }
     MayRead s (.host 1) 0x500020 ∧ (agentAcc s (.host 1) 0x500020 0).effect = true ∧ s.nvm.startOwned = false ∧ s.nvm.owner = 0 ∧
      MayRead s (.dbg false) 0x500020 ∧ (agentAcc s (.dbg false) 0x500020 0).effect = false) ∧
    (MayRead (flashing none) (.host 2) 0x500020 ∧ (flashing none).nvm.owner ≠ 0) ∧
    (MayWrite (flashing none) (.host 1) 0x500020 1 ∧ (flashing none).nvm.startOwned = false) ∧
    ([1, 2, 3].all (fun op => decide (checkAcc (flashing none) (agentAcc (flashing none) (.host 1) 0x500028 (fields [(30, 2, op), (0, 14, 16383)]))
        0x500028 4 true = 0)) = true ∧ reaches (flashing none) (.host 1) 0 = true ∧ (flashing none).nvm.cmd = none ∧
      (granTag (flashing none) 0 16383).1 = nvmParcel (flashing none) ∧
      nvmInArea (flashing none) (nvmParcel (flashing none)) (fld (rg (flashing none) 0x500024) 0 20) = true) ∧
    (let s := flashing (some (command 1 false)); s.nvm.cmd = some (command 1 false) ∧ s.nvm.reading = none ∧ s.nvm.reloads = []) ∧
    ((let s := flashing (some (command 1 true)); (command 1 true).by_ = s.nvm.owner ∧ tagReady s (16383 * 256) = (s, true) ∧ s.badBlk = []) ∧
     (let s := flashing (some (command 2 true)); (command 2 true).by_ = s.nvm.owner ∧ tagReady s (16383 * 256) = (s, true) ∧ s.badBlk = []) ∧
     (command 3 true).by_ = (flashing (some (command 3 true))).nvm.owner) ∧
    (let s := markBad (flashing (some (command 2 true))) 0 (tagPos + 1023)
     s.nvm.cmd = some (command 2 true) ∧ (tagReady s (16383 * 256)).2 = false) := by
  unfold MayWrite MayRead; decide +kernel

/-- The function in a state as given. -/
def fnIn (x : Fn) : State := { base with fns := [(0, x)] }


/-! ### Functions, reloads, security -/

/-- QUIESCENT, with a schedule that an enable accepts. -/
def quiescent : State := { base with fns := [(0, { st := .quiescent, sched := some hardSched })], pairs := [(0, { written := true })] }

theorem wit_FunctionControlMovesFunctionStates :
    (MayWrite quiescent (.host 1) 0x501000 (fnCtlWord quiescent 0 1) ∧
      allows quiescent (agentAcc quiescent (.host 1) 0x501000 (fnCtlWord quiescent 0 1)) 0 (fnParcel quiescent 0) rSHD true = true ∧
      (getFn quiescent 0).st = .quiescent ∧ (getFn quiescent 0).leaving = false ∧ enableCheck quiescent 0 = 0 ∧ enableCheck (fnIn { st := .quiescent }) 0 ≠ 0 ∧
      MayWrite (fnIn { st := .quiescent }) (.host 1) 0x501000 (fnCtlWord (fnIn { st := .quiescent }) 0 1) ∧
      allows (fnIn { st := .quiescent }) (agentAcc (fnIn { st := .quiescent }) (.host 1) 0x501000 1) 0 1 rSHD true = true ∧
      fnCtlWord (fnIn { st := .quiescent }) 0 1 = 1) ∧
    (let s := fnIn { st := .running, dlim := 255 }
     MayWrite s (.host 1) 0x501000 (fnCtlWord s 0 0) ∧ (getFn s 0).st = .running ∧ (getFn s 0).dlim ≠ 0) ∧
    (let s := fnIn { st := .unloaded }
     MayWrite s (.host 1) 0x501000 (setBit (fnCtlWord s 0 4) 4 true) ∧
      allows s (agentAcc s (.host 1) 0x501000 (setBit (fnCtlWord s 0 4) 4 true)) 0 (fnParcel s 0) rSHD true = true ∧ (getFn s 0).st = .unloaded) ∧
    MayWrite quiescent (.host 1) 0x501000 (fnCtlWord quiescent 0 8) ∧
      allows quiescent (agentAcc quiescent (.host 1) 0x501000 (fnCtlWord quiescent 0 8)) 0 (fnParcel quiescent 0) rSHD true = true ∧
      insideOf quiescent 0 = false := by
  unfold MayWrite; decide +kernel

/-- Context 0 stalled inside a microsequence that began at an entry of function 0. -/
def inMicro : State :=
  { quiescent with ctxs := [(0, { running with st := .stalled, mid := true, micro := some { op := 3 } })]
                   dec := [(decKey 0 0 3, { w := 0, fn := some 0 })] }

theorem wit_FunctionControlMovesFunctionStates_inside : insideOf inMicro 0 = true ∧ (getFn inMicro 0).st = .quiescent ∧
    (getFn inMicro 0).leaving = false ∧ MayWrite inMicro (.host 1) 0x501000 (fnCtlWord inMicro 0 8) := by
  unfold MayWrite; decide +kernel

/-- A signed directory of parcel 1 with one section, the schedule of function 0 (its signature was computed outside the package). -/
def dirText : Nat := ([
    (0x4756584401015001000000000000000011de24a2c251c777573cac5ea025e467f208e51dbff98fc54f6661cbe56583b0, 384),
    (0x37882f4a1ca297e60abcdbc3836d84bc8fa696c77440f92d0f5837e90a00e7c5284b447754d5dee88c986533b6901aeb, 384),
    (0x3177686d0ae8fb33184414abe6c1713a0004030000000000000002004000000000000000000000000000000000000000, 384),
    (0x00000000000000000000000000000000223238f0bcaaca37515d1dfdf689408a479d84ecbd67248b033aa73eed08c68a, 384),
    (0x0b76d3983211a4055823d157ae251fcc0000000000000000000000000000000000000000000000000000000000000000, 384),
    (0x283c1d7365ce4788f29f8ebf234edffead6fe997fbea5ffa2d58cc9dfa7b1c508b05526f55b9ebb2040f05b48fb6d0e1, 384),
    (0x1f3fd0a71dece459a50f2dd9927ecd263bac5b86f12903575e940e67c4e41aadd196b901f47dfa8b2f966138b59aa6ea, 384)] :
    List (Nat × Nat)).foldl (fun a x => a * 2 ^ x.2 + x.1) 0
/-- SHA-384 of its public key. -/
def keyDigestText : Nat := ([
    (0x3966d6c7e6a199e21807f0f8347406aa40aa59c18578b061c2bcafb3da86b24ecd4da2100402993d56c9b5e1f6b0f369, 384)] :
    List (Nat × Nat)).foldl (fun a x => a * 2 ^ x.2 + x.1) 0
/-- A signed unlock message for parcel 1, scope 7, 1440 minutes, challenge 0x1234; byte 0 lowest. -/
def msgText : Nat := ([
    (0xc46c453b55e679a237ca63fadac6b1b48902080540b354262235fea04ec6635fd2e795bd82121f149a67502a4d5013b7, 384),
    (0xe1d0b68fb4050f04b2ebb9556f52058b501c7bfa9dcc582dfa5feafb97e96fadfedf4e23bf8e9ff28847ce65731d3c28, 384),
    (0x3a71c1e6ab14441833fbe80a6d687731eb1a90b63365988ce8ded55477444b28c5e7000ae937580f2df94074c796a68f, 384),
    (0xbc846d83c3dbbc0ae697a21c4a2f8837b08365e5cb61664fc58ff9bf1de508f267e425a05eac3c5777c751c2a224de11, 384),
    (0x000000000000000000000000000000000000000000000000000000000000000000000000000012340000000000000000, 384),
    (0x000000000000000005a0070155585647, 128)] :
    List (Nat × Nat)).foldl (fun a x => a * 2 ^ x.2 + x.1) 0

/-- The parcel's entry: its area holds the directory and 64 erased bytes behind it. -/
def entry1 : ParcelEntry := { areaBase := 0x20000, areaSize := 0x20040, keyDigest := digestBits (beBytes 48 keyDigestText) }

/-- A reload of function 0 reads that directory. -/
def loading : State :=
  { base with hdr := some { parcels := [(1, entry1)], fns := [desc] }, fns := [(0, { st := .loading })], nvm := { reading := some 0 }
              flash := ((beBytes 336 dirText).zipIdx.map fun x => (0x20000 + x.2, x.1)).filter fun c => c.2 ≠ 0xFF }

/-- The directory's one section. -/
def section1 : SecEnt := secEntOf (((dirBytes loading entry1 false).drop 0x70).take 128)

theorem wit_ReloadsAndDrains_directory : dirRefusal (fnParcel loading 0) entry1 (dirBytes loading entry1 (0 % 2 == 1)) = 0 := by decide +kernel

theorem wit_ReloadsAndDrains_section :
    (dirEnts (dirBytes loading entry1 (0 % 2 == 1))).filter (fun y => y.fn == 0) = [section1] ∧ section1.kind = 4 ∧
    secPayload loading (fnParcel loading 0) entry1 section1 = (0, List.replicate 64 0xFF) ∧
    (rg loading (arcA (fnParcel loading 0))).toNat ≤ section1.epoch ∧ fnParcel loading 0 < 16 ∧ (getFn loading 0).sched = none ∧
    loading.nvm.secHits < 2 := by decide +kernel

theorem wit_ReloadsAndDrainsEndInTheirStates :
    (let s := { base with nvm := { reloads := [1, 0] } }
     s.nvm.reloads = 1 :: [0] ∧ s.nvm.reading = none ∧ s.nvm.cmd = none ∧ sealHolds s (fnParcel s 0) = false ∧ (getFn s 0).zeroing = false) ∧
    (loading.nvm.reading = some 0 ∧ (∀ g, g < nFn loading → (getFn loading g).zeroing = false) ∧ insideOf loading 0 = false ∧
      parcelEntry loading (fnParcel loading 0) = some entry1) ∧
    (let s := fnIn { st := .quiescent, leaving := true }; (getFn s 0).zeroing = false ∧ (getFn s 0).leaving = true ∧ insideOf s 0 = false) ∧
    ((getFn (fnIn { zeroing := true }) 0).zeroing = true ∧ insideOf (fnIn { zeroing := true }) 0 = false) ∧
    (let s := { fnIn { st := .draining, drainAt := some 5 } with ctxs := [] }
     (getFn s 0).st = .draining ∧ fnDrained s 0 = true) ∧
    (let s := { fnIn { st := .draining, drainAt := some 5 } with tiles := [(0, { req := 0x3FF, ack := 0x3FF, ns := 5 })] }
     (getFn s 0).st = .draining ∧ (getFn s 0).drainAt = some 5 ∧ atOrAfter (now s 0) 5 = true ∧ (ctxsOfFn s 0).any (heldByDbg s) = false) := by
  decide +kernel

/-- The key port and the unlock as given. -/
def secured (x : Sec) : State := { base with sec := x }

/-- The message is being verified; the challenge was placed at 0. -/
def verifying : State :=
  { loading with sec := { phase := 2, used := some (0x1234, 0), msg := (List.range 64).map fun i => (i, BitVec.ofNat 32 (msgText / 2 ^ (32 * i))) } }

theorem wit_UnlockFollowsItsChallenge_message : verifying.sec.phase = 2 ∧ unlockRes verifying = 0 := by decide +kernel

theorem wit_UnlockFollowsItsChallenge :
    (MayWrite base (.dbg true) (0x5C0300 + 4 * 1) 0xFFFF ∧ MayWrite sys (.dbg true) (0x5C0300 + 4 * 0) 0) ∧
    (MayWrite base (.dbg true) 0x5C0900 1 ∧ waitLeft base = 0) ∧
    (let s := secured { chalReq := true }; s.sec.chalReq = true ∧ s.sec.phase ≠ 2) ∧
    (let s := { secured { chal := some (5, 0) } with tiles := [(0, { ns := 60000000000 })] }
     s.sec.chal = some (5, 0) ∧ atOrAfter (now s 0) (0 + 60000000000) = true) ∧
    (MayWrite base (.dbg true) 0x5C0AFC 1 ∧ base.sec.phase ≠ 2) ∧
    (let s := secured { phase := 2 }; s.sec.phase = 2 ∧ unlockRes s ≠ 0) ∧
    (base.sec.active = true ∧ MayWrite base (.dbg true) 0x5C0900 2 ∧ atOrAfter (now base 0) base.sec.until_ = true) ∧
    (let s := { secured { waitTo := some 7 } with tiles := [(0, { ns := 7 })] }; waitLeft s = 0) := by
  unfold MayWrite; decide +kernel

/-- A seal of parcel 1 is in progress, with the key port's request as given. -/
def sealing (op : BitVec 2) (done : Option Bool) (ns : DWord) : State :=
  { secured { active := true, parcel := 1, scope := 7, kp := some { op, idx := 1, wd := 5, at_ := 0 },
              sealing := some { target := 1, epoch := 5, readBack := false, done } } with tiles := [(0, { req := 0x3FF, ack := 0x3FF, ns })] }

theorem wit_SealsAdvanceTheirCounter :
    (let a := agentAcc base (.host 1) 0x5C0280 0x10005
     MayWrite base (.host 1) 0x5C0280 0x10005 ∧ fld (0x10005 : Word) 16 5 = 1 ∧ allows base a 0 1 rSHD true = true ∧ base.sec.sealing = none) ∧
    (let a := agentAcc kept (.ctx 1) 0x5C0280 0x100005
     MayWrite kept (.ctx 1) 0x5C0280 0x100005 ∧ fld (0x100005 : Word) 16 5 = 16 ∧ allows kept a 0 0 rKHD true = true ∧ kept.sec.sealing = none) ∧
    ((sealing 3 none 0).sec.kp = some { op := 3, idx := 1, wd := 5, at_ := 0 } ∧
      (sealing 3 none 0).sec.sealing = some { target := 1, epoch := 5, readBack := false, done := none }) ∧
    ((sealing 2 none 0).sec.kp = some { op := 2, idx := 1, wd := 5, at_ := 0 } ∧ (sealing 2 none 0).sec.sealing.isSome = true) ∧
    (let k (op : BitVec 2) : KpReq := { op, idx := 1, wd := 5, at_ := 0 }
     kpLate (sealing 3 none 0) (k 3) = false ∧ kpLate (sealing 3 none 100000001) (k 3) = true ∧ kpLate (sealing 2 none 0) (k 2) = false ∧
      kpLate (sealing 2 none 10001) (k 2) = true) ∧
    (atOrAfter (now (sealing 3 none 100000000) 0) (0 + 100000000) = true ∧ atOrAfter (now (sealing 2 none 10000) 0) (0 + 10000) = true) ∧
    (sealing 2 (some true) 0).sec.sealing = some { target := 1, epoch := 5, readBack := false, done := some true } := by
  unfold MayWrite; decide +kernel

/-- Parcel 1's watchdog is on with its shortest window, which has just run out. -/
def barking : State := { base with regs := [(wda 1 0, 0x30000000)], tiles := [(0, { req := 0x3FF, ack := 0x3FF, ns := 10000 })] }

/-- Parcel 1 has an exception record and a fault record, the tile an unacknowledged fault and a lost block. -/
def faulted : State :=
  { base with regs := [(0x500810, 0x80000000), (0x580000, 0x8000), (0x580410, 0x80000000)]
              tiles := [(0, { req := 0x3FF, ack := 0x3FF, lost := [(31, some (65535, 1))] })] }

theorem wit_WatchdogsExpireAndRecordsClear :
    (MayWrite base (.host 1) (wda 1 0) 0x80000000 ∧ MayWrite base (.host 1) (wda 1 0) (0xFFFFFFFF &&& 0x7FFFFFFF)) ∧
    (wdOn barking 1 = true ∧ wdCounts barking 1 = true ∧
      atOrAfter (now barking 0) (sget 0 barking.sec.wdStart 1 + BitVec.ofNat 64 (wdWindow barking 1)) = true ∧ powered barking 0 domBUF = true) ∧
    (MayWrite faulted (.host 1) (ta 0 (0x500800 + 16 * 1)) 0x80000000 ∧ bit (rg faulted (ta 0 (0x500800 + 16 * 1))) 31 = true) ∧
    (MayWrite faulted (.host 1) (ta 0 (0x580400 + 16 * 1)) 0x80000000 ∧ bit (rg faulted (ta 0 (0x580400 + 16 * 1))) 31 = true) ∧
    MayWrite sys (.dbg true) (ta 0 0x580000) 0x8000 ∧
    (MayWrite faulted (.host 1) (ta 0 0x58000C) (BitVec.ofNat 32 (65535 * 64)) ∧ (granTag faulted 0 (65535 / 4)).1 = 1 ∧
      allows faulted (agentAcc faulted (.host 1) (ta 0 0x58000C) (BitVec.ofNat 32 (65535 * 64))) 0 1 { rSHD with k := 1 == 0 } true = true ∧
      fld (BitVec.ofNat 32 (65535 * 64)) 6 16 = 65535) := by
  unfold MayWrite; decide +kernel

/-! ### Frame ports and pairs -/

/-- Port 0 as given, with `w` in its receive configuration beside a flow 0 that is on: 8 granules from 4, 8 records from 0x100. -/
def port (w : Word) (x : Port) : State :=
  { base with ports := [(0, x)], pairs := [(0, { asleep := true })]
              regs := [(0x530000, 0x40), (0x530018, w), (0x530100, 0x80000000), (0x530104, 0x00100008), (0x530108, 0x04000001)] }

/-- 60 bytes and their FCS. -/
def frame : List Byte := withFcs (List.replicate 60 0x11) true

def received (flow : Option (Nat × Nat × Nat)) : RxFrame := { bytes := frame, at_ := 0, ns := 0, frac := 0, flow, drop := none }

theorem wit_ReceivedFramesAreStoredInTheirFlow_start :
    (let s := port 1518 { up := true }
     portOn s 0 = true ∧ (getPort s 0).up = true ∧ (getPort s 0).rx = none ∧ pairOn s 0 = false ∧ isControl frame = false ∧
      isRunning s (fnOfPort s 0) = true ∧ addrOk s 0 frame = false) ∧
    (let s := port (1518 + 2 ^ 19) { up := true }
     portOn s 0 = true ∧ pairOn s 0 = false ∧ isRunning s (fnOfPort s 0) = true ∧ addrOk s 0 frame = true ∧ flowFor s 0 frame = none) ∧
    (let s := port (1518 + 2 ^ 19 + 2 ^ 26) { up := true }
     portOn s 0 = true ∧ pairOn s 0 = false ∧ isRunning s (fnOfPort s 0) = true ∧ addrOk s 0 frame = true ∧ flowFor s 0 frame = some 0 ∧
      fld (pr s 0 (flowOff 0 0)) 16 12 = 0 ∧ ringRoom s 0 0 = some (0, 0)) ∧
    (let s := port (1518 + 2 ^ 19 + 2 ^ 26) { up := true }
     let s := { s with regs := [(0x530000, 0x40), (0x530018, 1518 + 2 ^ 19 + 2 ^ 26), (0x530100, 0x80020000), (0x530104, 0x00100008), (0x530108, 0x04000001)]
                       flows := [(flowKey 0 0, { rl := 2 })] }
     portOn s 0 = true ∧ addrOk s 0 frame = true ∧ flowFor s 0 frame = some 0 ∧ fld (pr s 0 (flowOff 0 0)) 16 12 = 2 ∧
      (getFlow s (flowKey 0 0)).win = now s 0 >>> 20 ∧ (getFlow s (flowKey 0 0)).rl = 2) := by decide +kernel

theorem wit_ReceivedFramesAreStoredInTheirFlow_end :
    (let s := port 64 { up := true, rx := some (received (some (0, 0, 0))) }
     let r := received (some (0, 0, 0))
     (getPort s 0).rx = some r ∧ r.taken = false ∧ r.jab = false ∧ r.faulted = false ∧ r.bytes.length = 64 ∧ fld (pr s 0 0x18) 0 14 = 64 ∧
      fcsOk r.bytes = true ∧ isControl r.bytes = false ∧ r.flow = some (0, 0, 0) ∧
      isRunning s (fnOfPort s 0) = true ∧ s.badBlk = [] ∧
      storeOk s 0 ((dFirst s 0 0 + 0) * 256) (storedBytes s 0 r.bytes).length (recOff s 0 0 (getFlow s (flowKey 0 0)).prod.toNat) = (s, true)) ∧
    (let s := { port 16 { up := true, rx := some (received none) } with tiles := [(0, { req := 0x3FF, ack := 0x3FF, ns := 1000000 })] }
     (getPort s 0).rx = some (received none) ∧ (received none).bytes.length ≤ 4 * fld (pr s 0 0x18) 0 14 ∧
      atOrAfter (now s 0) ((received none).at_ + BitVec.ofNat 64 (4 * fld (pr s 0 0x18) 0 14 * byteNs (getPort s 0).speed + 1)) = true) ∧
    (let s := { port 64 {} with flows := [(0, { prod := 0, cons := 0xFFFF, recs := [{ gran := 0, count := 1, skip := 0 }] })] }
     MayWrite s (.host 1) (pa 0 (flowOff 0 0x10)) 0 ∧ ((0 : Word).setWidth 16 - (getFlow s (flowKey 0 0)).cons).toNat = 1 ∧
      (getFlow s (flowKey 0 0)).held = 1 ∧ MayWrite s (.host 1) (pa 0 (flowOff 0 0x10)) 1) ∧
    (let s := port 64 {}
     fld (pr s 0 0) 6 2 ≠ 0 ∧ portOn s 0 = true ∧ (speedsOf (fld (pr s 0 0) 0 3)).testBit (1 : BitVec 2).toNat = true ∧ (getPort s 0).up = false) ∧
    (getPort (port 64 { up := true }) 0).up = true := by
  unfold MayWrite; decide +kernel

/-- An entry of 60 bytes at the end of the buffer memory, and the same port with queues, pauses and a frame as given. -/
def entry60 : TxEntry := { addr := 0x3FFF00, tagi := false, tsreq := false, note := true, len := 60 }
def sending (q : TxQ) (x : Port) (ns : DWord) : State :=
  { port 1518 x with txqs := [(7, q)], tiles := [(0, { req := 0x3FF, ack := 0x3FF, ns })] }

theorem wit_TransmitQueuesSendInPriorityOrder :
    (let s := sending { entries := List.replicate 15 entry60 } { up := true } 0; let full := sending { entries := List.replicate 16 entry60 } { up := true } 0
     MayWrite s (.host 1) (pa 0 0x304) 0xE0000000 ∧ (getPort s 0).up = true ∧ fld (0xE0000000 : Word) 29 3 = 7 ∧
      (getTxQ s (txKey 0 7)).entries.length = 15 ∧ MayWrite full (.host 1) (pa 0 0x304) 0xE0000000 ∧ (getTxQ full (txKey 0 7)).entries.length = 16) ∧
    MayWrite (port 1518 {}) (.host 1) (pa 0 4) ((rg (port 1518 {}) (pa 0 4) &&& 1) ||| 2) ∧
    (let s := sending {} { up := true, xoff := 1 } 0
     portOn s 0 = true ∧ (getPort s 0).up = true ∧ (getPort s 0).tx = none ∧ egressBusy s 0 = false ∧ ownDue s 0 = true) ∧
    (let s := sending { entries := [entry60] } { up := true } 0
     portOn s 0 = true ∧ (getPort s 0).up = true ∧ (getPort s 0).tx = none ∧ egressBusy s 0 = false ∧ ownDue s 0 = false ∧
      nextEntry s 0 = some (7, entry60) ∧ lenOk s 0 entry60 = true ∧ granOk s 0 entry60 = (s, true) ∧ entry60.tsreq = false ∧ s.badBlk = [] ∧
      anyLost s (ta 0 0x3FFF00) 60 = false) ∧
    (let f : TxFrame := { q := some 7, ent := some entry60, bytes := frame }
     (getPort (sending {} { tx := some f } 0) 0).tx = some f) ∧
    paused (sending { pausedTo := some 5 } {} 5) 0 7 = false ∧
    (let s := sending {} { refreshAt := some 5 } 5; (getPort s 0).refreshAt = some 5 ∧ atOrAfter (now s 0) 5 = true) ∧
    (let s := sending { pausedTo := some 200000, pausedAt := some 0 } {} 100000
     (getTxQ s (txKey 0 7)).pausedAt = some 0 ∧ paused s 0 7 = true ∧
      atOrAfter (now s 0) (0 + BitVec.ofNat 64 (max 1 (fld (pr s 0 0x24) 0 16) * 100000)) = true) := by
  unfold MayWrite; decide +kernel

/-- Pair 0 with one frame. -/
def windowed (f : PairFrame) : State := { base with pairs := [(0, { frames := [f] })] }

theorem wit_ChunksMoveThroughTheWindow :
    (∀ f ∈ [chunked, { chunked with complete := 0 }, { chunked with complete := 1, cut := true },
        { chunked with dep := 1000 }, { chunked with released := 0 }, { chunked with ended := true }],
      (getPair (windowed f) 0).frames = [f] ∧ f.counted = false) ∧
    (let f := { chunked with complete := 0 }; f.ended = false ∧ f.complete + 1 < f.chunks) ∧
    (let f := { chunked with complete := 1, cut := true }; f.ended = false ∧ f.complete + 1 = f.chunks ∧ f.released < f.chunks ∧ f.cut = true) ∧
    (let f := { chunked with d := 100 }; f.released < f.complete ∧ atOrAfter (now (windowed f) 0) (f.dueAt f.released) = false) ∧
    (let f := { chunked with released := 0, d := 0 }; f.released < f.complete ∧ f.released + 1 < f.chunks ∧
      atOrAfter (now (windowed f) 0) (f.dueAt f.released) = true ∧ (f.owed && !f.control && (f.abandoned || (!f.closed && decide (f.next ≤ f.released)))) = false ∧
      (let g := { f with next := 0 }; g.owed && !g.control && (g.abandoned || (!g.closed && decide (g.next ≤ g.released)))) = true) ∧
    (let f := { chunked with ended := true, bt := 0 }; f.released < f.complete ∧ f.released + 1 = f.chunks ∧ f.ended = true ∧
      atOrAfter (now (windowed f) 0) (f.dueAt f.released) = true) ∧
    (chunked.fwd = true ∧ chunked.started = false ∧ 1 ≤ chunked.released ∧ chunked.released < chunked.chunks ∧
      atOrAfter (now (windowed chunked) 0) (chunked.relAt + BitVec.ofNat 64 (4 * chunked.bt + chunked.delta)) = false ∧
      (let f := { chunked with bt := 0 }; atOrAfter (now (windowed f) 0) (f.relAt + BitVec.ofNat 64 (4 * f.bt + f.delta)) = true)) := by
  decide +kernel

/-! ### Flits, links, faults -/

/-- The link between the two tiles is up, tile 0 (or 1) as given beside its powered domains. -/
def linked (x y : Tile) : State :=
  { base with links := [(0, { st := .up }), (4, { st := .up })]
              tiles := [(0, { x with req := 0x3FF, ack := 0x3FF }), (1, { y with req := 0x3FF, ack := 0x3FF, key := some 5 })] }

/-- The same with a mirrored block of tile 1 in tile 0's store, and with context 0 waiting for an answer under tag 9. -/
def mirrored : State := { linked {} {} with mirror := [(mirKey 1 (mirBlocks - 1), { data := 0x77, placed := true })] }
def waiting : State := { linked {} {} with ctxs := [(0, { running with st := .stalled, wait := .remote 0x1000000 8 9 })] }

theorem wit_FlitsInOrderTakeEffect_data :
    (let fl := { flit 1 1 with addr := 0x3FFFF8, aux := 0xFF }
     InOrder (linked {} {}) 0 0 fl ∧ fl.typ = 1 ∧ fl.kind = 0 ∧ fl.aux.toNat = 2 ^ fl.len.toNat - 1 ∧
      GoodBuffer (linked {} {}) (accOf fl) 0 fl.addr.toNat fl.len.toNat true) ∧
    (let fl := { flit 2 1 with addr := 0x3FFFF8 }
     InOrder (linked {} {}) 0 0 fl ∧ GoodBuffer (linked {} {}) (accOf fl) 0 fl.addr.toNat fl.len.toNat false ∧
      isLost (linked {} {}) fl.addr.toNat = false ∧ routeOf (linked {} {}) 0 1 = some (0, none)) ∧
    (let fl := { flit 3 1 with tag := 9 }
     InOrder waiting 0 0 fl ∧ (getCtx waiting 0).wait = .remote 0x1000000 8 fl.tag) := by
  simp only [inOrder_iff, goodBuffer_iff]; decide +kernel

theorem wit_FlitsInOrderTakeEffect_messages :
    (let fl := { flit 4 1 with addr := 16 }
     InOrder (linked {} {}) 0 0 fl ∧ powered (linked {} {}) 0 domBUF = true ∧ doorbellOk (linked {} {}) (accOf fl) 0 (fld fl.addr 0 10) = true) ∧
    (let fl := flit 5 1; let s := { linked {} {} with mbxs := [(0, { msgs := List.replicate 7 { words := [1], stamp := 0, seq := 0 } })] }
     InOrder s 0 0 fl ∧ fl.more = false ∧ (fnOfMbx s 0).isSome = true ∧ allows s (accOf fl) 0 (ownerOf s (fnOfMbx s 0)) rSWHD true = true ∧
      mbxRoom s 0 = true ∧ ((getTile s 0).inbox.find? fun e => e.1 == 1) = none) ∧ InOrder (linked {} {}) 0 0 (flit 6 1) := by
  simp only [inOrder_iff]; decide +kernel

theorem wit_FlitsInOrderTakeEffect_control :
    (InOrder (linked {} {}) 0 0 (flit 10 1) ∧ bit (flit 10 1).aux 0 = false ∧ peerOf (linked {} {}).nTiles 0 0 = (flit 10 1).src.toNat) ∧
    (let fl := { flit 10 0 with dst := 1, aux := 1 }; let s := linked {} { sync := { t1 := some 5 } }
     InOrder s 1 0 fl ∧ bit fl.aux 0 = true ∧ (getTile s 1).sync.t1.isSome = true) ∧
    (InOrder (linked {} {}) 0 0 (flit 11 1) ∧ ctlKind (flit 11 1) = ctlLinks) := by
  simp only [inOrder_iff]; decide +kernel

theorem wit_FlitsInOrderTakeEffect_mirror : 1 = partner 0 ∧
    (let b := mirBlocks - 1; let fl := { flit 7 1 with aux := BitVec.ofNat 32 (b * 256 + 1) }; let s := linked { half := [(b * 2, 3)] } {}
     InOrder s 0 0 fl ∧ auxBlock fl = b ∧ auxHalf fl = 1 ∧ ((getTile s 0).half.find? fun e => e.1 == b * 2) = some (b * 2, 3)) ∧
    (let b := mirBlocks - 1; let fl := { flit 8 1 with aux := BitVec.ofNat 32 (b * 256) }
     InOrder mirrored 0 0 fl ∧ auxBlock fl = b ∧ bit fl.aux 2 = false ∧ mirrorGood mirrored 1 b = true ∧ routeOf mirrored 0 1 = some (0, none)) ∧
    (let b := 16383; let fl := { flit 9 1 with aux := BitVec.ofNat 32 (b * 256 + 1) }; let s := linked { half := [(b * 2 + 1, 3)], resend := [(b, 0)] } {}
     InOrder s 0 0 fl ∧ auxBlock fl = b ∧ ((getTile s 0).resend.any fun r => r.1 == b) = true ∧
      ((getTile s 0).half.find? fun e => e.1 == b * 2 + 1) = some (b * 2 + 1, 3)) := by
  simp only [inOrder_iff]; decide +kernel

/-- Link 0 of tile 0 as given, at a time. -/
def wire (l : Link) (ns : DWord) : State := { linked { ns } {} with links := [(0, l), (4, { st := .up })] }

theorem wit_LinksKeepTheirSequenceAndState :
    (let s := wire { st := .up, replay := [(flit 1 1, 7)] } 3000
     tileRuns s 0 = true ∧ linkLive s 0 0 = true ∧ (getLink s 0).queue = [] ∧ (∀ e ∈ (getLink s 0).replay, e.2 < 8) ∧ (getLink s 0).replay ≠ [] ∧
      atOrAfter (now s 0) ((getLink s 0).progress + 3000) = true ∧ sequenced (flit 11 1) = true ∧
      { flit 1 1 with lseq := 1 }.lseq ≠ (getLink s 0).expect ∧ (flit 1 1).lseq = (getLink s 0).expect ∧ (flit 1 1).ackv = false) ∧
    ((getLink (wire { st := .training } 0) 0).st = .training ∧ (getLink (wire { st := .training } 0) 0).tryX8 = false ∧
      (getLink (wire { st := .training, tryX8 := true } 0) 0).tryX8 = true) ∧
    (let s := wire { st := .failed } 10000000
     (getLink s 0).st = .failed ∧ atOrAfter (now s 0) ((getLink s 0).failedAt + 10000000) = true) ∧
    (let s := { kept with links := [(0, { st := .failed })] }
     tileRuns s 0 = true ∧ (getLink s 0).st = .failed ∧ MayWrite s (.ctx 1) (ta 0 (0x570104 + 0x40 * 0)) 1) := by
  unfold MayWrite; decide +kernel

theorem wit_FaultsAndTimeoutsHaveTheirOutcome :
    (let s := linked { ns := 3000, eseqIn := [(7, { held := [(flit 1 1, 0)] })] } {}
     tileRuns s 0 = true ∧ (getEseq s 0 (1 * 4 + 3)).held = (flit 1 1, 0) :: [] ∧ atOrAfter (now s 0) (0 + 3000) = true) ∧
    (let s := linked {} {}
     tileRuns s 1 = true ∧ parentOf s 1 = some (0, 1) ∧ syncTimed s 1 = true ∧ ((List.range 4).find? fun k => linkLive s 1 k && peerOf s.nTiles 1 k == 0) = some 0) ∧
    (let s := setRg (linked {} { ns := 16384 }) (ta 1 0x55F014) 0x80
     tileRuns s 1 = true ∧ syncBit s 1 = true ∧ atOrAfter (now s 1) ((getTile s 1).sync.last + 16384) = true ∧ powered s 1 domBUF = true) ∧
    (let s := linked {} { ns := 4095, sync := { asked := some 0 } }; tileRuns s 1 = true ∧ syncTimed s 1 = false) ∧
    partnerRoute base 0 = false ∧
    [FaultSite.engine 0 0, .rom 0 0, .snapshot 0 0, .security, .bank [.agent (.host 31), .portRx 7, .portTx 7], .hostPort (.host 31), .portRx 7, .portTx 7, .pair 7, .events 0x3EF true, .sequencer 31,
      .pwm 7, .link 3].all (siteThere base 0) = true ∧
    (srcExists 0 0 = true ∧ srcExists 0 0x3EF = true) ∧
    (tileRuns base 0 = true ∧ powered base 0 domBUF = true ∧ (getTile base 0).scrubPos = 0 ∧ isBad base 0 0 = false ∧ 0 + 1 < scrubLen) ∧
    (let s := linked { scrubPos := 106855 } {}; tileRuns s 0 = true ∧ powered s 0 domBUF = true ∧ isBad s 0 106855 = false ∧ 106855 + 1 = scrubLen) ∧
    (let s := { linked { scrubPos := 65535 } {} with fns := [] }
     powered s 0 domBUF = true ∧ isLost s (ta 0 (65535 * 64)) = false ∧ ∃ i, i < 32 ∧ sget none (getTile s 0).lost i = none) := by
  decide +kernel

theorem portOn_nothing (s : State) (h : s.fns = []) (p : Nat) : portOn s p = false := by
  unfold portOn
  cases fnOfPort s p <;> simp [getFn, h, sget]

theorem wit_FaultsAndTimeouts_noPort : ∀ p, portOn { linked { scrubPos := 65535 } {} with fns := [] } p = false := portOn_nothing _ rfl

/-! ### Sequencers, timers, PWM pairs -/

/-- Sequencer 0 as given with a program word at its program counter; the loop is word 0, the stall limit one unit. -/
def seq (x : Seq) (w : Word) : State := { base with seqs := [(0, x)], regs := [(qa 0 8, 0x01000000), (qa 0 0x40, w)] }

theorem wit_SequencersKeepTheirProgramAndFifos_commands :
    (let s := seq {} 0
     (MayWrite s (.host 1) (qa 0 0x20) 1 ∧ (getSeq s 0).st = .stopped ∧ isRunning s (fnOfSeq s 0) = true) ∧ MayWrite s (.host 1) (qa 0 0x20) 0 ∧
      MayWrite s (.host 1) (qa 0 0x20) (seqCtlWith s 0 1) ∧ MayWrite s (.host 1) (qa 0 0x20) (seqCtlWith s 0 2) ∧
      MayWrite s (.host 1) (qa 0 0x28) 5 ∧ (MayRead s (.host 1) (qa 0 0x2C) ∧ (agentAcc s (.host 1) (qa 0 0x2C) 0).effect = true) ∧
      ([0x14, 0x40, 0xBC] : List (BitVec 8)).all (fun off => progReg off && off != 0x34 && off != 0x38 &&
        checkAcc s (agentAcc s (.host 1) (qa 0 off.toNat) 0x1F1F) (qa 0 off.toNat) 4 true == 0) = true ∧ progReg 0xC0 = false) ∧
    (let s := seq { tx := List.replicate 8 1, rx := [] } 0; (getSeq s 0).tx.length = 8 ∧ (getSeq s 0).rx = []) ∧
    (let s := seq { frozen := true } 0
     MayWrite s (.dbg true) (ta 0 0x5B0040) 1 ∧ unlockAt s 0 = some (1, 7) ∧ (fnOfSeq s 0).isSome = true ∧ ownerOf s (fnOfSeq s 0) = 1 ∧
      bit (1 : Word) 0 = true ∧ MayWrite s (.dbg true) (ta 0 0x5B0040) 0 ∧ bit (rg s (ta 0 0x5B0044)) 0 = false ∧ (getSeq s 0).frozen = true ∧
      (getSeq s 0).st = .stopped ∧ isRunning s (fnOfSeq s 0) = true) := by
  unfold MayWrite MayRead; decide +kernel

theorem wit_SequencersKeepTheirProgramAndFifos_steps :
    ([1, 4].all fun u => let s := seq { st := .stalled, ticks := 256 } (BitVec.ofNat 32 (u * 2 ^ 17))
      decide ((getSeq s 0).st ≠ .stopped) && fld (qr s 0 8) 24 8 == 1 && untilOf (curWord s 0) == u) = true ∧
    (let s := seq { st := .running, tx := [7] } 0x60100
     (getSeq s 0).st ≠ .stopped ∧ powered s 0 domPIN = true ∧ (getSeq s 0).hold = .none ∧ untilOf (curWord s 0) = 3) ∧
    boundaryDue (seq { st := .running } 0) 0 = true ∧
    boundaryDue { seq { st := .running, base := 256 } 0 with nTiles := 8 } 0 = false ∧
    boundaryDue { seq { st := .running, base := 0 } 0 with nTiles := 8 } 0 = true ∧
    (let s := seq { st := .running, tx := [7] } 0x600100
     (getSeq s 0).st ≠ .stopped ∧ powered s 0 domPIN = true ∧ (getSeq s 0).hold = .none ∧ untilOf (curWord s 0) = 0 ∧ (getSeq s 0).due = none ∧
      (getSeq s 0).ticks = 0 ∧ actOf (curWord s 0) = 6 ∧ cntOf (curWord s 0) ≠ 0 ∧ (getSeq s 0).tx = 7 :: []) ∧
    (let s := seq { st := .running } 0x600100; actOf (curWord s 0) = 6 ∧ untilOf (curWord s 0) = 0 ∧ (getSeq s 0).tx = []) ∧
    (let s := setRg (seq { st := .running, due := some (true, true, false) } 0x300100) (qa 0 0) (BitVec.ofNat 32 (2 ^ 24 + 31 * 2 ^ 15))
     (getSeq s 0).due = some (true, true, false) ∧ actOf (curWord s 0) = 3 ∧ untilOf (curWord s 0) = 0 ∧ (getSeq s 0).bc + pwOf (qr s 0 0) < wOf (qr s 0 0) ∧
      bit (qr s 0 0) 24 = true) := by decide +kernel

/-- Timer channel 0 as given, with its configuration and its period, at a time. -/
def timer (x : Tmr) (cfg add : Word) (ns : DWord) : State :=
  { base with tmrs := [(0, x)], regs := [(tma 0 0, cfg), (tma 0 4, 0), (tma 0 0x18, add)], tiles := [(0, { req := 0x3FF, ack := 0x3FF, ns })] }

theorem wit_TimersCompareAndCapture :
    (let s := timer {} 0x02000000 0 100; let off := timer {} 0 0 100
     (MayWrite s (.host 1) (tma 0 0x10) 100 ∧ MayWrite s (.host 1) (tma 0 0x10) 99 ∧ cmpLive (tr s 0 0) = true ∧ tmrCount s 0 = 100) ∧
      (MayWrite off (.host 1) (tma 0 0x10) 5 ∧ cmpLive (tr off 0 0) = false) ∧
      (MayWrite s (.host 1) (tma 0 0x14) 100 ∧ MayWrite s (.host 1) (tma 0 0x14) 99 ∧ MayWrite off (.host 1) (tma 0 0x14) 5) ∧
      MayRead s (.host 1) (tma 0 0x20) ∧ (agentAcc s (.host 1) (tma 0 0x20) 0).effect = true ∧ (fnOfTmr s 0).isSome = true) ∧
    (let s := timer { armed := true, base := 60, dist := 40 } 0x02000000 20 100; let once := timer { armed := true, base := 60, dist := 40 } 0x02000000 0 100
     (getTmr s 0).armed = true ∧ (getTmr s 0).dist = (tmrCount s 0 - (getTmr s 0).base).toNat ∧ (tr s 0 0x18).toNat ≠ 0 ∧ (tr once 0 0x18).toNat = 0 ∧
      srcExists 0 (fld (tr s 0 4) 10 10) = true ∧ powered s 0 domBUF = true) ∧
    (let s := timer { armed := true, base := 60, dist := 41 } 0 0 100; (tmrCount s 0 - (getTmr s 0).base).toNat < (getTmr s 0).dist) ∧
    ((getTmr (timer {} 0 0 0) 0).armed = false) ∧
    (let s := timer { opening := some 5 } 0x40000000 0 100
     modeOf (tr s 0 0) = 1 ∧ (true != bit (tr s 0 0) 24) = true ∧ (false != bit (tr s 0 0) 24) = false ∧ (getTmr s 0).opening = some 5) ∧
    (let s := timer { edges := 3 } 0x80C00003 0 100
     modeOf (tr s 0 0) = 2 ∧ bit (BitVec.ofNat 2 (fld (tr s 0 0) 22 2)) 0 = true ∧ bit (BitVec.ofNat 2 (fld (tr s 0 0) 22 2)) 1 = true ∧
      fld (tr s 0 0) 0 8 = (getTmr s 0).edges ∧ fld (tr s 0 0) 0 8 > (getTmr (timer { edges := 2 } 0x80C00003 0 100) 0).edges) := by
  unfold MayWrite MayRead; decide +kernel

/-- PWM pair 0 as given, with its configuration. -/
def pwm (x : Pwm) (cfg : Word) : State := { base with pwms := [(0, x)], regs := [(wa 0 0, cfg)] }

theorem wit_PwmPairsFollowCarrierAndTrips :
    ((getPwm base 0).st = .off ∧ isRunning base (fnOfPwm base 0) = true ∧ (getPwm base 0).tripf = false ∧
      (getPwm (pwm { tripf := true } 0) 0).st = .off ∧ (getPwm (pwm { tripf := true } 0) 0).tripf = true) ∧
    (let s := pwm { st := .running, per := 3, eff := 2 } 0x00010000
     (getPwm s 0).st ≠ .off ∧ 0 < (getPwm s 0).eff ∧ (getPwm s 0).eff + 1 = (getPwm s 0).per.toNat ∧ blankCh s 0 = some 0) ∧
    (let s := pwm { st := .running, due := some true } 0x00020000; (getPwm s 0).due = some true ∧ bit (wr s 0 0) 17 = true) ∧
    (let s := pwm { st := .tripped, tripf := true } 0
     (MayWrite s (.host 1) (wa 0 0x18) (pwmCtlWith s 0 3) ∧ MayWrite s (.host 1) (wa 0 0x18) (pwmCtlWith s 0 2) ∧
      MayWrite s (.host 1) (wa 0 0x18) (pwmCtlWith s 0 1) ∧ MayWrite s (.host 1) (wa 0 0x18) 1 ∧ MayWrite s (.host 1) (wa 0 0x18) 0) ∧
      (getPwm s 0).tripf = true ∧ (getPwm s 0).st = .tripped ∧ (getPwm s 0).lvl = false ∧ pwmBlank s 0 = false ∧
      (getPwm (pwm { st := .tripped, tripf := true, lvl := true } 0) 0).lvl = true) ∧
    (MayWrite base (.host 1) (wa 0 0x10) 1 ∧ MayWrite base (.host 1) (wa 0 0x10) 2 ∧ MayWrite base (.host 1) (wa 0 0x10) 0xFFFE ∧
      MayWrite base (.host 1) (wa 0 0x10) 0xFFFF) := by
  unfold MayWrite; decide +kernel

/-! ### Debug, measurement, power, start -/

/-- The scan port as given, over the linked tiles. -/
def scan (g : Dbg) : State := { linked {} {} with dbg := g }

theorem wit_ScanPortRunsDebugAccesses :
    ((scan { ir := 1 }).dbg.ir ≠ 8 ∧ (scan { ir := 9 }).dbg.ir = 9) ∧
    (let g := (scan { ir := 8, acc := some { addr := 0, wr := false, consume := true, data := 0 } }).dbg; g.ir = 8 ∧ g.acc.isSome = true) ∧
    (let s := scan { ir := 8 }
     s.dbg.ir = 8 ∧ s.dbg.acc = none ∧ GoodBuffer s (agentAcc s (.dbg true) 0x3FFFFC 0) 0 0x3FFFFC 4 false ∧ isLost s 0x3FFFFC = false ∧
      GoodBuffer s (agentAcc s (.dbg false) 0x3FFFFC 1) 0 0x3FFFFC 4 true ∧
      checkAcc s (agentAcc s (.dbg true) 0x5FFFFC 0) 0x5FFFFC 4 false ≠ 0 ∧
      (0x1FFFFFC : Word).toNat / 0x1000000 < s.nTiles ∧ routeOf s 0 1 = some (0, none)) ∧
    (let g := (scan { ir := 8, acc := some { addr := 0, wr := false, consume := true, data := 0 }, ans := some (some 5) }).dbg
     g.acc = some { addr := 0, wr := false, consume := true, data := 0 } ∧ g.ans = some (some 5) ∧ g.tag = none) := by
  simp only [goodBuffer_iff]; decide +kernel

theorem wit_DebuggerHaltsAndReleasesContexts :
    ([(1, CtxState.idle), (1, .parked), (1, .free), (1, .halted), (1, .locked), (1, .ready), (1, .active), (1, .stalled), (2, .halted), (2, .idle),
      (3, .halted), (3, .idle)].all fun x => let s := on { running with st := x.2 }
      checkAcc s (agentAcc s (.dbg true) (ta 0 0x5B0004) (setFld 0 30 2 x.1)) (ta 0 0x5B0004) 4 true == 0) = true ∧
    (reaches base (.dbg true) 0 = true ∧ (fnOfCtx base 0).isSome = true ∧ unlockAt base 0 = some (ctxParcel base 0, 7)) ∧
    (MayWrite base (.dbg true) (ta 0 0x5B0004) (setFld 0x10000000 30 2 1) ∧ bit (0x10000000 : Word) 28 = true ∧ ctxsOf base 0 1 = [0]) ∧
    (let s := on { running with st := .halted }; (getCtx s 0).resident = true ∧ (getCtx s 0).act = true ∧ (getCtx s 0).rel = []) ∧
    (let s := on { st := .halted }; (getCtx s 0).resident = false ∧ (getCtx s 0).act = false) ∧
    (let s := on { running with haltReq := .step }; (getCtx s 0).haltReq ≠ .none ∧ (getCtx s 0).st = .active ∧ (getCtx s 0).mid = false) ∧
    (getCtx base 0).haltReq = .none := by
  unfold MayWrite; decide +kernel

theorem canonical_iff (s : State) : Canonical s ↔
    (Memory.wf 0 s.mem = true ∧ Memory.wf 0 s.code = true ∧ Memory.wf 0xFF s.flash = true ∧ rwf s.regs = true ∧ rwf s.staged = true ∧
      swf {} s.tiles = true ∧ swf {} s.ctxs = true ∧ swf {} s.engs = true ∧ swf {} s.srcs = true ∧ swf {} s.ports = true) ∧
    (swf {} s.flows = true ∧ swf {} s.txqs = true ∧ swf {} s.pairs = true ∧ swf {} s.seqs = true ∧ swf {} s.tmrs = true ∧ swf {} s.pwms = true ∧
      swf {} s.mbxs = true ∧ swf 0 s.locks = true ∧ swf {} s.pmcs = true ∧ swf {} s.smps = true ∧ swf {} s.links = true ∧
      swf {} s.codeTag = true ∧ swf {} s.wstore = true ∧ swf {} s.dec = true ∧ swf {} s.mirror = true ∧ swf {} s.fns = true) :=
  ⟨fun h => ⟨⟨h.mem, h.code, h.flash, h.regs, h.staged, h.tiles, h.ctxs, h.engs, h.srcs, h.ports⟩,
    h.flows, h.txqs, h.pairs, h.seqs, h.tmrs, h.pwms, h.mbxs, h.locks, h.pmcs, h.smps, h.links, h.codeTag, h.wstore, h.dec, h.mirror, h.fns⟩,
   fun ⟨⟨a, b, c, d, e, f, g, h, i, j⟩, k, l, m, n, o, p, q, r, t, u, v, w, x, y, z, z'⟩ =>
    ⟨a, b, c, d, e, f, g, h, i, j, k, l, m, n, o, p, q, r, t, u, v, w, x, y, z, z'⟩⟩

theorem wit_CanonicalFormKeptByEveryStep : Canonical base ∧ Canonical (blocked running) ∧ Canonical (linked {} {}) := by
  simp only [canonical_iff]; refine ⟨⟨?_, ?_⟩, ⟨?_, ?_⟩, ?_, ?_⟩ <;> decide +kernel

theorem wit_CanonicalFormKeptByEveryStep_step : step base = .next (idle base) := rfl

/-- Counter 143 and sampler 15 of tile 0 belong to parcel 1, whose snapshot is armed for the present. -/
def measuring : State :=
  { base with pmcs := [(143, { owner := some 1, cnt := 5 })], smps := [(15, { owner := some 1, count := 128 })], regs := [(ta 0 0x5A2010, 2)] }

theorem wit_CountersAndSamplersHaveOneOwner_canonical : Canonical measuring := by
  simp only [canonical_iff]; refine ⟨?_, ?_⟩ <;> decide +kernel

theorem wit_CountersAndSamplersHaveOneOwner :
    (MayRead base (.host 1) (pmcA 0 143 0) ∧ (getPmc base (pmcKey 0 143)).owner = none ∧ mayClaim (agentAcc base (.host 1) (pmcA 0 143 0) 0) = true ∧
      MayRead measuring (.host 1) (pmcA 0 143 0) ∧ (getPmc measuring (pmcKey 0 143)).owner = some 1) ∧
    (MayWrite measuring (.host 1) (pmcA 0 143 0) 1 ∧
      (getPmc measuring (pmcKey 0 143)).owner = some (BitVec.ofNat 4 (agentAcc measuring (.host 1) (pmcA 0 143 0) 1).parcel)) ∧
    MayWrite measuring (.host 1) (pmcA 0 143 0x10) 5 ∧
    (MayWrite base (.host 1) (ta 0 0x5A2010) ((rg base (ta 0 0x5A2010) &&& 2) ||| 1) ∧ MayWrite base (.host 1) (ta 0 0x5A2010) 2) ∧
    (bit (rg measuring (ta 0 (0x5A2000 + 16 * 1))) 1 = true ∧ atOrAfter (now measuring 0) (snapAt measuring 0 1) = true ∧
      bit (rg base (ta 0 (0x5A2000 + 16 * 1))) 1 = false) ∧
    (MayRead base (.host 1) (smpA 0 15 0) ∧ (getSmp base (smpKey 0 15)).owner = none ∧ MayRead measuring (.host 1) (smpA 0 15 0) ∧
      (getSmp measuring (smpKey 0 15)).owner = some 1) ∧
    MayWrite measuring (.host 1) (smpA 0 15 0) 1 ∧ MayWrite measuring (.host 1) (smpA 0 15 0xC) (fields [(8, 7, 127)]) := by
  unfold MayWrite MayRead; decide +kernel

/-- Tile 0 (or 1) as given, with a context of the system. -/
def domains (x y : Tile) : State := { kept with tiles := [(0, x), (1, y)], links := [(0, { st := .up }), (4, { st := .up })], seqs := [] }

theorem wit_PowerCommandsMoveDomains :
    (let up : Tile := { req := 0x3FF, ack := 0x3FF }; let s := domains up up
     (MayWrite s (.ctx 1) (ta 0 0x590004) (setBit 0 31 false) ∧ (getTile s 0).pcmd = none ∧ downRefusal s 0 0 0 = some 1) ∧
      (downRefusal s 0 3 0 = none ∧ bit (getTile s 0).req 3 = true ∧ downRefusal s 0 domPIN 0 = none ∧ domPIN = 7) ∧
      MayWrite s (.ctx 1) (ta 0 0x590004) (setBit 0x307 31 false) ∧ MayWrite s (.ctx 1) (ta 0 0x590004) (setBit 10 31 true) ∧
      MayWrite s (.ctx 1) (ta 0 0x590004) (setBit 0x107 31 true) ∧ 1 < s.nTiles) ∧
    (let s := domains { req := 0x37F, ack := 0x37F } {}
     bit (getTile s 0).req domPIN = false ∧ (getTile s 0).pcmd = none ∧ downRefusal s 0 domPIN 0 = none ∧ MayWrite s (.ctx 1) (ta 0 0x590004) (setBit 7 31 true)) ∧
    (let s := domains {} { wakeReq := true }; (getTile s 1).wakeReq = true ∧ bit (getTile s 1).req domBUF = false ∧ (getTile s 1).pcmd = none) ∧
    (let s := domains { req := 0x3FF, ack := 0x17F } {}; bit (getTile s 0).ack 9 ≠ true ∧ bit (getTile s 0).req 9 = true) ∧
    (let s := domains {} { ack := 0x100, pcmd := some { up := false, dom := domBUF } }
     bit (getTile s 1).ack 8 ≠ false ∧ bit (getTile s 1).req 8 = false ∧ (getTile s 1).pcmd = some { up := false, dom := domBUF } ∧ 8 ∈ domsOf domBUF ∧
      ∀ k ∈ domsOf domBUF, k ≠ 8 → bit (getTile s 1).ack k = false) ∧
    (let s := domains { req := 0x3FF, ack := 0x37F, pcmd := some { up := true, dom := domPIN } } {}
     bit (getTile s 0).ack 7 ≠ bit (getTile s 0).req 7 ∧ (getTile s 0).pcmd = some { up := true, dom := domPIN } ∧ 7 ∈ domsOf domPIN ∧ powered s 0 domBUF = true) ∧
    (let x : Tile := { req := 0x3FF, ack := 0x3FF, stale := 0x0E4 }; let s := domains x { req := 0x3FF, ack := 0x3FF }
     [2, 5, 6, 7].all (fun d => bit (getTile s 0).stale d && bit (getTile s 0).ack d && bit (getTile s 0).req d) = true ∧
      reloadWaits s 0 0 = false ∧ reloadWaits s 0 3 = false ∧ bit (getTile s 0).wakeBad 0 = false) ∧
    (let s := domains { req := 0x3FF, ack := 0x3FF, stale := 4, resend := [(wsBlock 0 0 + 32768, 0)] } {}; reloadWaits s 0 0 = true) ∧
    (let s := domains { req := 0x3FF, ack := 0x3FF, stale := 4, wakeBad := 1 } {}; reloadWaits s 0 0 = false ∧ bit (getTile s 0).wakeBad 0 = true) ∧
    (let s := domains {} { req := 0x3FF, ack := 0x3FF, stale := 0x302 }
     s.kpTest = false ∧ s.srcs = [] ∧ linksSettled s 1 = true ∧ bit (getTile s 1).stale domBUF = true ∧ ∀ k ∈ [domSEC, domLINK], bit (getTile s 1).ack k = true ∧ bit (getTile s 1).req k = true) := by
  unfold MayWrite; decide +kernel

theorem wit_PowerCommandsMoveDomains_canonical : Canonical (domains { req := 0x3FF, ack := 0x3FF } { req := 0x3FF, ack := 0x3FF, stale := 0x302 }) := by
  simp only [canonical_iff]; refine ⟨?_, ?_⟩ <;> decide +kernel

theorem wit_ResetAndStartReachTheirStates : base.begun = true ∧ (State.reset.begun = false ∧ State.reset.kpTest = false) ∧
    fld (rg (setRg base bootA 5) bootA) 0 3 = 5 ∧ fld (rg base bootA) 0 3 ≠ 5 := by decide +kernel

/-! ### Results -/

/-- Context 0 about to run, with its first registers as given. -/
def with3 (v1 v2 v3 : Vec) : State := on { running with v := #v[0, v1, v2, v3, 0, 0, 0, 0, 0, 0, 0, 0, 0, 0, 0, 0] }

/-- Register `n` and the program counter after a command on context 0. -/
def after (i : Instr) (s : State) (n : Nat) : Option (Vec × BitVec 20) :=
  match exec i s with
  | .next t => some (getV t 0 n, (getCtx t 0).pc)
  | .fault _ => none
  | .refused _ => none

/-- Class 0 fields. -/
def f0 (rd ra rb e fn : Nat) : BitVec 23 := BitVec.ofNat 23 (rd * 2 ^ 19 + ra * 2 ^ 15 + rb * 2 ^ 11 + e * 2 ^ 8 + fn)

/-- ADD on bytes: each element wraps alone (07 R255, R256). -/
theorem test_add_bytes_wrap : after (.add 0 (f0 3 1 2 4 0)) (with3 0x01FF80 0x010180 0) 3 = some (0x020000, 0x104) := by decide +kernel

/-- ADDS on bytes stops at 255; the destination is a source. -/
theorem test_adds_saturates : after (.adds 0 (f0 1 1 2 4 0)) (with3 0x7F807F 0x01FF00 0) 1 = some (0x80FF7F, 0x104) := by decide +kernel

/-- SUB at the full width wraps below 0. -/
theorem test_sub_wraps : after (.sub 0 (f0 3 1 2 0 0)) (with3 0 1 0) 3 = some (BitVec.allOnes 128, 0x104) := by decide +kernel

/-- MULHU gives the upper half of the product. -/
theorem test_mulhu : after (.mulhu 0 (f0 3 1 2 2 0)) (with3 0xFFFFFFFF 0xFFFFFFFF 0) 3 = some (0xFFFFFFFE, 0x104) := by decide +kernel

/-- SHL takes its amount modulo the width. -/
theorem test_shl_modulo : after (.shl 0 (f0 3 1 2 4 0)) (with3 0x0181 0x0901 0) 3 = some (0x0202, 0x104) := by decide +kernel

/-- SAR copies the sign of each element. -/
theorem test_sar_sign : after (.sar 0 (f0 3 1 2 4 0)) (with3 0x8040 0x0303 0) 3 = some (0xF008, 0x104) := by decide +kernel

/-- CLT compares element 0 as signed, CLTU as unsigned. -/
theorem test_clt_signed : after (.clt 0 (f0 3 1 2 4 0)) (with3 0x80 0x01 7) 3 = some (1, 0x104) ∧
    after (.cltu 0 (f0 3 1 2 4 0)) (with3 0x80 0x01 7) 3 = some (0, 0x104) := by decide +kernel

/-- LI sign-extends its 19 bits. -/
theorem test_li_sign : after (.li 0 (BitVec.ofNat 23 (2 ^ 19 + 0x40000))) (with3 0 0 0) 1 = some (-0x40000, 0x104) := by decide +kernel

/-- BZ counts its displacement of -1 instruction from the next one; BNZ goes on. -/
theorem test_bz_backwards : (after (.bz 0 (f0 15 3 15 7 0xFF)) (with3 0 0 0) 3).map (·.2) = some 0x100 ∧
    (after (.bnz 0 (f0 15 3 15 7 0xFF)) (with3 0 0 0) 3).map (·.2) = some 0x104 := by decide +kernel

/-- A reserved E is no instruction: nothing is written, and a context without a task-state block ends its activation. -/
theorem test_reserved_width : (after (.add 0 (f0 3 1 2 5 0)) (with3 1 2 0) 3) = some (0, 0) := by decide +kernel

/-- The check value of CRC-32 of IEEE 802.3: nine ASCII digits. -/
theorem test_crc32 : fcsOf (ascii "123456789") = 0xCBF43926 := by decide +kernel

/-- The check value of the CRC-16 with polynomial 0x1021, most significant bit first, started at ones. -/
theorem test_crc16 : (ascii "123456789").foldl crc16Byte 0xFFFF = 0x29B1 := by decide +kernel

/-- SHA-384 of "abc" (FIPS 180-4). -/
theorem test_sha384 : beVal (sha384 (ascii "abc")) =
    0xCB00753F45A35E8BB5A03D699AC65007272C32AB0EDED1631A8B605A43FF5BED8086072BA1E7CC2358BAECA134C825A7 := by decide +kernel

/-- The S-box's example of FIPS 197, and a product of its field. -/
theorem test_aes_field : sbox 0x53 = 0xED ∧ gmul 8 0x57 0x83 = 0xC1 := by decide +kernel

/-- The base point is on P-384. -/
theorem test_p384_base : ecOn ecG.1 ecG.2 = true := by decide +kernel

/-! ### The spec's worked examples -/

/-- Instruction words of 06 chapter 8: the pair ADD and SEQI, LD32, BZ; and an opcode of each range that R248 assigns. -/
theorem test_insn_words : insnOf 0 0x8D144D89 0 = .pairedWord 0 0x0D144D89 ∧ insnOf 0 0x311B8040 0 = .ld32 0 0x1B8040 ∧
    insnOf 0 0x407B7FFB 0 = .bz 0 0x7B7FFB ∧ insnOf 7 0x00000000 0 = .add 7 0 ∧ insnOf 0 0x17000000 0 = .perm 0 0 ∧
    insnOf 0 0x48000000 3 = .rmov 0 0 3 ∧ insnOf 0 0x51800007 0 = .trap 0 7 ∧ insnOf 0 0x53000001 0 = .mtsTsbp 0 1 ∧
    insnOf 0 0x53000020 0 = .wdkick 0 0x20 ∧ insnOf 0 0x59000001 0 = .schrStatus 0 1 ∧ insnOf 0 0x722B8020 9 = .customerInstruction 0 4 ⟨0x2B8020, 9⟩ ∧
    insnOf 0 0x0A800000 0 = .reservedOpcode 0 0x15 0 := by decide +kernel

/-- The pair of 06 chapter 8: V4 lane 0 takes the sum with V5 lane 0. -/
theorem test_pair_adds_lane : after (.pairedWord 0 0x0D144D89)
    (on { running with v := #v[0, 0, 0, 0, 0x50000000000000007, 5, 9, 0, 0, 0, 0, 0, 0, 0, 0, 0] }) 4 = some (0x5000000000000000C, 0x104) := by decide +kernel

/-- The identification word of the first production step (18 R602). -/
theorem test_idcode : fields [(28, 4, 1), (12, 16, 0x1608), (1, 11, 0x2A7), (0, 1, 1)] = 0x1160854F := by decide +kernel

/-- Microwords 0x1A02 and 0x1A03 of the worked example of 08, from their words W4 to W0, in parcel 1. -/
def saturate : State :=
  { on { running with
      v := #v[0, 0, 0, 0, 0, 0x0100000100200005, 0, 0x1A4100, 0, 0, 0, 0, 0, 0, 0, 0], mid := true
      micro := some { mdr := 0x00003412F0FF1000, mar := 0x1A4120, ir := 0x2B8020, op := 4, npc := 0x104, upc := 0x1A02, cls := 3 } } with
    dec := [(decKey 0 0 4, { w := fields [(31, 1, 1), (29, 2, 2), (25, 4, 1), (13, 3, 3), (0, 13, 0x1A01)], fn := some 0 })]
    wstore := [(uwKey 0 0 0x202, { w := 0x0000018147A60000300000000000000000000000, tag := 1, fn := some 0 }),
               (uwKey 0 0 0x203, { w := 0x00060180163E0580200000000000000000000000, tag := 1, fn := some 0 })] }

/-- Steps 8 and 9 of that example: the sums saturate, V5 has them in native order, the store holds them big-endian. -/
theorem test_saturate_example :
    after (.customerInstruction 0 4 ⟨0x2B8020, 9⟩) saturate 5 = some (0x01001235FFFF0015, 0x104) := by decide +kernel

theorem test_saturate_store : (match exec (.customerInstruction 0 4 ⟨0x2B8020, 9⟩) saturate with
    | .next t => (getCtx t 0).stores.map fun x => (x.addr, x.size, x.data)
    | _ => []) = [(0x1A4120, 8, 0x00013512FFFF1500)] := by decide +kernel

end Sys2Proof.Tests
end

section
/-! ## What a performance event and an edge message leave alone -/

namespace Sys2Proof.Machine

theorem Elsewhere.refl (s : State) (ch : Nat → Prop) : Elsewhere s s ch :=
  ⟨rfl, fun _ _ => .inl rfl, fun _ => rfl, fun _ => ⟨rfl, rfl, rfl⟩⟩

theorem Elsewhere.trans {u v w : State} {ch : Nat → Prop} (huv : Elsewhere u v ch) (hvw : Elsewhere v w ch) : Elsewhere u w ch where
  rest := by
    calc w = { v with fresh := w.fresh, regs := w.regs, tiles := w.tiles, srcs := w.srcs, pmcs := w.pmcs, smps := w.smps,
                      result := w.result } := hvw.rest
      _ = _ := by rw [huv.rest]
  regs a ha := by
    rcases hvw.regs a ha with hw | hp
    · rcases huv.regs a ha with hv | hp
      · exact .inl (hw.trans hv)
      · exact .inr hp
    · exact .inr hp
  tiles k := by
    have hv := huv.tiles k
    rw [← hvw.tiles k] at hv
    exact hv
  srcs k := by
    obtain ⟨a1, l1, f1⟩ := huv.srcs k
    obtain ⟨a2, l2, f2⟩ := hvw.srcs k
    exact ⟨a2.trans a1, l2.trans l1, f2.trans f1⟩

theorem Elsewhere.mono {u v : State} {ch ch' : Nat → Prop} (h : Elsewhere u v ch) (hch : ∀ a, ch a → ch' a) : Elsewhere u v ch' :=
  ⟨h.rest, fun a ha => h.regs a fun hc => ha (hch a hc), h.tiles, h.srcs⟩

theorem Elsewhere.ite {s u v : State} {ch : Nat → Prop} {c : Prop} [Decidable c] (hu : Elsewhere s u ch) (hv : Elsewhere s v ch) :
    Elsewhere s (if c then u else v) ch := by
  split
  · exact hu
  · exact hv

/-- A register write changes the registers that it names. -/
theorem elsewhere_setRg (s : State) (a : Nat) (v : Word) (ch : Nat → Prop) (ha : ch a ∨ isPmcCfg a) : Elsewhere s (setRg s a v) ch where
  rest := rfl
  regs b hb := by
    by_cases hba : b = a
    · subst hba; exact .inr (ha.resolve_left hb)
    · exact .inl (by simp [hba])
  tiles _ := rfl
  srcs _ := ⟨rfl, rfl, rfl⟩

theorem elsewhere_setPmc (s : State) (k : Nat) (x : Pmc) : Elsewhere s (setPmc s k x) noReg :=
  ⟨rfl, fun _ _ => .inl rfl, fun _ => rfl, fun _ => ⟨rfl, rfl, rfl⟩⟩

theorem elsewhere_setSmp (s : State) (k : Nat) (x : Smp) : Elsewhere s (setSmp s k x) noReg :=
  ⟨rfl, fun _ _ => .inl rfl, fun _ => rfl, fun _ => ⟨rfl, rfl, rfl⟩⟩

/-- A source's pending, missed and latched bits are the pending bits of event sources. -/
theorem elsewhere_modSrc (s : State) (k : Nat) (g : Src → Src)
    (hg : ∀ x, (g x).act = x.act ∧ (g x).loaded = x.loaded ∧ (g x).fn = x.fn) : Elsewhere s (modSrc s k g) noReg where
  rest := rfl
  regs _ _ := .inl rfl
  tiles _ := rfl
  srcs j := by
    by_cases hj : j = k
    · subst hj; simpa using hg (getSrc s j)
    · simp [hj]

theorem elsewhere_requestBuf (s : State) (t : Nat) : Elsewhere s (requestBuf s t) noReg := by
  refine .ite (.refl s _) ⟨rfl, fun _ _ => .inl rfl, fun k => ?_, fun _ => ⟨rfl, rfl, rfl⟩⟩
  by_cases hk : k = t
  · subst hk; simp
  · simp [hk]

theorem elsewhere_raiseEdge (s : State) (t n : Nat) : Elsewhere s (raiseEdge s t n) noReg := by
  have hlatch := elsewhere_modSrc s (t * 1024 + n) (fun x => { x with edge := true }) fun _ => ⟨rfl, rfl, rfl⟩
  exact .ite (.refl s _) (.ite (elsewhere_modSrc s _ _ fun _ => ⟨rfl, rfl, rfl⟩)
    (.ite (hlatch.trans (elsewhere_requestBuf _ t)) hlatch))

theorem elsewhere_pmcAdd (s : State) (t i k : Nat) (hi : i < 144) : Elsewhere s (pmcAdd s t i k) noReg := by
  have hset := fun x => elsewhere_setPmc s (t * 144 + i) x
  exact .ite (hset _) (((hset _).trans (elsewhere_setRg _ _ _ _ (.inr ⟨t, i, hi, rfl⟩))).trans (elsewhere_raiseEdge _ _ _))

theorem elsewhere_smpTake (s : State) (t e n : Nat) (o : Occ) : Elsewhere s (smpTake s t e n o) noReg := by
  have hset := fun x => elsewhere_setSmp s (t * 16 + e) x
  unfold smpTake
  dsimp only
  split
  · exact .refl s _
  · exact .ite (.ite (hset _) (.ite ((hset _).trans (elsewhere_raiseEdge _ _ _)) (hset _))) (.refl s _)

/-- Counting an event moves counters and samplers only, with the event messages of those that fill up (18 R624 to R629). -/
theorem elsewhere_countEvent (s : State) (t : Nat) (o : Occ) (k : Nat) : Elsewhere s (countEvent s t o k) noReg := by
  have hcounters : Elsewhere s (s.pmcs.foldl (fun s e =>
      match e.2.owner with
      | some q => if e.1 / 144 == t && pmcHit s t (e.1 % 144) q.toNat o then pmcAdd s t (e.1 % 144) k else s
      | none => s) s) noReg := by
    refine List.foldlRecOn s.pmcs _ (motive := fun u => Elsewhere s u noReg) (.refl s _) fun u hu e _ => ?_
    split
    · exact .ite (hu.trans (elsewhere_pmcAdd _ _ _ _ (Nat.mod_lt _ (by decide)))) hu
    · exact hu
  unfold countEvent
  dsimp only
  split
  · exact hcounters.trans (elsewhere_smpTake _ _ _ _ _)
  · exact hcounters

theorem elsewhere_countAcc (s : State) (a : Acc) (t code own : Nat) : Elsewhere s (countAcc s a t code own) noReg :=
  .ite (elsewhere_countEvent _ _ _ _) (elsewhere_countEvent _ _ _ _)

/-- A register that is no counter's configuration is as it was. -/
theorem Elsewhere.rg_eq {u v : State} (h : Elsewhere u v noReg) {a : Nat} (ha : ¬isPmcCfg a) : rg v a = rg u a :=
  (h.regs a id).resolve_right ha

/-- Staged copies are as they were. -/
theorem Elsewhere.staged_eq {u v : State} {ch : Nat → Prop} (h : Elsewhere u v ch) : v.staged = u.staged := by rw [h.rest]

/-! ## Accesses of agents -/

/-- What the agent is told is the model's own record, and a debugger's refusal its sticky flag. -/
theorem answer_refused (s : State) (ag : Agent) :
    answer s ag 0 true = { s with result := { data := 0, refused := true }, dbg := { s.dbg with refused := (answer s ag 0 true).dbg.refused } } := by
  cases ag <;> rfl

theorem answer_dbg_refused (s : State) (b : Bool) (v : Word) : (answer s (.dbg b) v true).dbg.refused = true := rfl

theorem answer_accepted (s : State) (ag : Agent) (v : Word) :
    answer s ag v false = { s with result := { data := v.setWidth 64, refused := false } } := by cases ag <;> rfl

/-- A refusal changes a count of refusals only (04 R147). -/
theorem denyAt_regs (s : State) (a : Acc) (addr : Nat) : denyAt s a addr = { s with regs := (denyAt s a addr).regs } := by
  unfold denyAt
  split <;> rfl

theorem rg_denyAt (s : State) (a : Acc) (addr b : Nat) :
    rg (denyAt s a addr) b = rg s b ∨ ∃ u p, b = ta u (0x5C0380 + p * 4) := by
  unfold denyAt countDeny
  split
  · exact .inl rfl
  · generalize (if addr / 0x1000000 < s.nTiles then addr / 0x1000000 else homeOf a) = u
    by_cases hb : b = ta u (0x5C0380 + a.parcel * 4)
    · exact .inr ⟨u, a.parcel, hb⟩
    · exact .inl (by simp [hb])

theorem busWrite_refused (s : State) (a : Acc) (addr n v : Nat) (flit : Bool) (h : checkAcc s a addr n true ≠ 0) :
    busWrite s a addr n v flit = (denyAt s a addr, checkAcc s a addr n true) := if_pos h

theorem busRead_refused (s : State) (a : Acc) (addr n : Nat) (h : checkAcc s a addr n false ≠ 0) :
    busRead s a addr n = (denyAt s a addr, checkAcc s a addr n false, 0) := if_pos h

theorem agentWrite_unreached (s : State) (ag : Agent) (addr : Nat) (v : Word) (hr : ¬reaches s ag (addr / 0x1000000) = true) :
    agentWrite s ag addr v = answer (denyAt s (agentAcc s ag addr v) 0) ag 0 true := if_pos (by simp [hr])

/-- An access that reaches its tile is one of the tile's bus. -/
theorem agentWrite_reached (s : State) (ag : Agent) (addr : Nat) (v : Word) (hr : reaches s ag (addr / 0x1000000) = true) :
    agentWrite s ag addr v = answer (busWrite s (agentAcc s ag addr v) addr 4 v.toNat).1 ag 0
      (decide ((busWrite s (agentAcc s ag addr v) addr 4 v.toNat).2 ≠ 0)) := if_neg (by simp [hr])

theorem agentRead_unreached (s : State) (ag : Agent) (addr : Nat) (hr : ¬reaches s ag (addr / 0x1000000) = true) :
    agentRead s ag addr = answer (denyAt s (agentAcc s ag addr 0) 0) ag 0 true := if_pos (by simp [hr])

theorem agentRead_reached (s : State) (ag : Agent) (addr : Nat) (hr : reaches s ag (addr / 0x1000000) = true) :
    agentRead s ag addr = answer (busRead s (agentAcc s ag addr 0) addr 4).1 ag
      (BitVec.ofNat 32 (busRead s (agentAcc s ag addr 0) addr 4).2.2)
      (decide ((busRead s (agentAcc s ag addr 0) addr 4).2.1 ≠ 0)) := if_neg (by simp [hr])

/-- A write that reaches no tile or that the checks refuse is counted and answered. -/
theorem agentWrite_refused (s : State) (ag : Agent) (addr : Nat) (v : Word)
    (h : ¬reaches s ag (addr / 0x1000000) = true ∨ checkAcc s (agentAcc s ag addr v) addr 4 true ≠ 0) :
    ∃ addr', agentWrite s ag addr v = answer (denyAt s (agentAcc s ag addr v) addr') ag 0 true := by
  by_cases hr : reaches s ag (addr / 0x1000000) = true
  · have hc := h.resolve_left (not_not_intro hr)
    exact ⟨addr, by rw [agentWrite_reached _ _ _ _ hr, busWrite_refused _ _ _ _ _ _ hc, decide_eq_true hc]⟩
  · exact ⟨0, agentWrite_unreached _ _ _ _ hr⟩

/-- The same of a read. -/
theorem agentRead_refused (s : State) (ag : Agent) (addr : Nat)
    (h : ¬reaches s ag (addr / 0x1000000) = true ∨ checkAcc s (agentAcc s ag addr 0) addr 4 false ≠ 0) :
    ∃ addr', agentRead s ag addr = answer (denyAt s (agentAcc s ag addr 0) addr') ag 0 true := by
  by_cases hr : reaches s ag (addr / 0x1000000) = true
  · have hc := h.resolve_left (not_not_intro hr)
    exact ⟨addr, by rw [agentRead_reached _ _ _ hr, busRead_refused _ _ _ _ hc, decide_eq_true hc]; rfl⟩
  · exact ⟨0, agentRead_unreached _ _ _ hr⟩

/-- What a refused access leaves: counts of refusals, the record of the access, a debugger's flag. -/
theorem refusal_effect (s : State) (ag : Agent) (a : Acc) (addr : Nat) :
    let t := answer (denyAt s a addr) ag 0 true
    t.result.refused = true ∧ t.result.data = 0 ∧
      t = { s with regs := t.regs, result := t.result, dbg := { s.dbg with refused := t.dbg.refused } } ∧
      (∀ b, ag = .dbg b → t.dbg.refused = true) ∧ ∀ r, rg t r = rg s r ∨ ∃ u p, r = ta u (0x5C0380 + p * 4) := by
  refine ⟨by rw [answer_refused], by rw [answer_refused], ?_, ?_, ?_⟩
  · rw [answer_refused, denyAt_regs]
  · rintro b rfl
    exact answer_dbg_refused _ b 0
  · intro r
    rw [answer_refused]
    exact rg_denyAt s a addr r

/-- Settles O34: the check stands before every effect, so a refusal leads to the count and the answer alone. -/
theorem refusedRegisterAccessHasNoEffect : Obligations.RefusedRegisterAccessHasNoEffect := by
  unfold Obligations.RefusedRegisterAccessHasNoEffect
  intro s ag addr v
  dsimp only
  constructor
  · intro h
    obtain ⟨addr', he⟩ := agentWrite_refused s ag addr.toNat v h
    exact ⟨_, congrArg Host.Outcome.next he, refusal_effect s ag _ addr'⟩
  · intro h
    obtain ⟨addr', he⟩ := agentRead_refused s ag addr.toNat h
    exact ⟨_, congrArg Host.Outcome.next he, refusal_effect s ag _ addr'⟩

/-! ## Accesses that the checks pass -/

/-- A write that the checks pass is the register's own. -/
theorem busWrite_register (s : State) (a : Acc) (addr v : Word) (d : Desc) (hoff : 0x500000 ≤ addr.toNat % 0x1000000)
    (hc : checkAcc s a addr.toNat 4 true = 0) (hd : regDesc s a (addr.toNat / 0x1000000) (addr.toNat % 0x1000000) = some d)
    (hw : ∀ u : State, regWrite u d a (addr.toNat / 0x1000000) (addr.toNat % 0x1000000) v false = (plainWrite u d addr.toNat v, .ok)) :
    busWrite s a addr.toNat 4 v.toNat =
      (plainWrite (countAcc s a (addr.toNat / 0x1000000) 0x42 d.own) d addr.toNat v, 0) := by
  unfold busWrite
  simp only [hc, hd, BitVec.ofNat_toNat, BitVec.setWidth_eq, hw]
  rw [if_neg (by decide), if_neg (by omega)]

/-- A read that the checks pass, of a register with a good block behind it, is the register's own. -/
theorem busRead_register (s : State) (a : Acc) (addr : Word) (d : Desc) (hoff : 0x500000 ≤ addr.toNat % 0x1000000)
    (hc : checkAcc s a addr.toNat 4 false = 0) (hd : regDesc s a (addr.toNat / 0x1000000) (addr.toNat % 0x1000000) = some d)
    (hb : badStore s (addr.toNat / 0x1000000) (addr.toNat % 0x1000000) = none)
    (hr : ∀ u : State, regRead u d a (addr.toNat / 0x1000000) (addr.toNat % 0x1000000) = plainRead u d a addr.toNat) :
    busRead s a addr.toNat 4 = (countAcc (plainRead s d a addr.toNat).1 a (addr.toNat / 0x1000000) 0x42 d.own, 0,
      (plainVal s d addr.toNat).toNat) := by
  unfold busRead storeFound
  simp only [hc, hd, hb, hr]
  rw [if_neg (by decide), if_neg (by omega), if_neg (by omega)]
  rfl

/-- A plain write takes each bit by its access code (00 R12, R14, R17). -/
theorem bit_plainVal_plainWrite (s : State) (d : Desc) (a : Nat) (v : Word) (n : Nat) (hn : n < 32) :
    bit (plainVal (plainWrite s d a v) d a) n =
      if bit d.w1c n && bit v n then false else if bit d.rw n then bit v n else bit (plainVal s d a) n := by
  have hval : plainVal (plainWrite s d a v) d a = ((plainVal s d a &&& ~~~d.rw) ||| (v &&& d.rw)) &&& ~~~(v &&& d.w1c) := by
    unfold plainWrite plainVal
    by_cases hs : d.staged <;> simp [hs]
  rw [hval]
  simp only [bit, BitVec.getLsbD_and, BitVec.getLsbD_or, BitVec.getLsbD_not, hn, decide_true, Bool.true_and]
  have hcode : ∀ o w b c : Bool, ((o && !w || b && w) && !(b && c)) = if (c && b) = true then false else if w = true then b else o := by
    decide
  exact hcode _ _ _ _

/-- What a plain register shows does not move with what an access counts. -/
theorem plainVal_of_elsewhere {s u : State} (h : Elsewhere s u noReg) (d : Desc) {a : Nat} (ha : ¬isPmcCfg a) :
    plainVal u d a = plainVal s d a := by
  unfold plainVal sg
  rw [h.rg_eq ha, h.staged_eq]

theorem plainWrite_staged (s : State) (d : Desc) (a : Nat) (v : Word) (hs : d.staged = true) : ∃ w, plainWrite s d a v = setSg s a w :=
  ⟨_, if_pos hs⟩

theorem plainWrite_live (s : State) (d : Desc) (a : Nat) (v : Word) (hs : ¬d.staged = true) : ∃ w, plainWrite s d a v = setRg s a w :=
  ⟨_, if_neg hs⟩

theorem elsewhere_answer (s : State) (ag : Agent) (v : Word) (ch : Nat → Prop) : Elsewhere s (answer s ag v false) ch := by
  rw [answer_accepted]
  exact ⟨rfl, fun _ _ => .inl rfl, fun _ => rfl, fun _ => ⟨rfl, rfl, rfl⟩⟩

theorem Elsewhere.setSg {s u : State} {ch : Nat → Prop} (h : Elsewhere s u ch) (a : Nat) (w : Word) :
    Elsewhere (setSg s a w) (setSg u a w) ch where
  rest := by
    calc Machine.setSg u a w = { u with staged := sput (regReset a) s.staged a w } := by rw [← h.staged_eq]; rfl
      _ = _ := by rw [h.rest]; rfl
  regs := h.regs
  tiles := h.tiles
  srcs := h.srcs

/-- A plain write to a staged register, among what an access counts and answers: the staged copy, and nothing else. -/
theorem elsewhere_plainWrite_staged {s u : State} (h : Elsewhere s u noReg) (d : Desc) (a : Nat) (v : Word) (ag : Agent)
    (hs : d.staged = true) :
    let w := answer (plainWrite u d a v) ag 0 false
    w.staged = (setSg s a (sg w a)).staged ∧ Elsewhere { s with staged := w.staged } w noReg := by
  obtain ⟨x, hx⟩ := plainWrite_staged u d a v hs
  intro w
  have hw : w.staged = (setSg s a x).staged := by
    rw [← (h.setSg a x).staged_eq, ← hx]
    exact (elsewhere_answer _ ag 0 noReg).staged_eq
  have hcopy : sg w a = x := by
    rw [sg, hw]
    exact sget_sput_same _ _ _ _
  have hstart : { s with staged := w.staged } = setSg s a x := by rw [hw]; rfl
  refine ⟨by rw [hcopy, hw], ?_⟩
  rw [hstart]
  have hafter := (h.setSg a x).trans (elsewhere_answer _ ag 0 _)
  rwa [← hx] at hafter

/-- The same of a register without a staged copy: the register, and nothing else. -/
theorem elsewhere_plainWrite_live {s u : State} (h : Elsewhere s u noReg) (d : Desc) (a : Nat) (v : Word) (ag : Agent)
    (hs : ¬d.staged = true) : Elsewhere s (answer (plainWrite u d a v) ag 0 false) (· = a) := by
  obtain ⟨x, hx⟩ := plainWrite_live u d a v hs
  rw [hx]
  exact ((h.mono fun _ => False.elim).trans (elsewhere_setRg u a x (· = a) (.inl rfl))).trans (elsewhere_answer _ ag 0 _)

theorem plainVal_answer (s : State) (d : Desc) (a : Nat) (ag : Agent) (v : Word) :
    plainVal (answer s ag v false) d a = plainVal s d a := by rw [answer_accepted]; rfl

/-- A plain read clears the bits that it returned of the RC fields, where the access has its effect (00 R16). -/
theorem plainRead_live (s : State) (d : Desc) (a : Acc) (addr : Nat) (hs : d.staged = false) :
    rg (plainRead s d a addr).1 addr = (if a.effect then rg s addr &&& ~~~d.rc else rg s addr) ∧
      Elsewhere s (plainRead s d a addr).1 (· = addr) := by
  have hval : plainVal s d addr = rg s addr := by simp [plainVal, hs]
  unfold plainRead
  simp only [hval]
  split
  · next hclear =>
    obtain ⟨heffect, _⟩ := Bool.and_eq_true_iff.mp hclear
    exact ⟨by simp [heffect], elsewhere_setRg _ _ _ _ (.inl rfl)⟩
  · next hkeep =>
    refine ⟨?_, .refl s _⟩
    split
    · next heffect =>
      have hnone : rg s addr &&& d.rc = 0 := by simpa [heffect] using hkeep
      ext i hi
      have hbit := congrArg (·[i]) hnone
      simp only [BitVec.getElem_and, BitVec.getElem_not] at hbit ⊢
      cases hx : (rg s addr)[i] with
      | false => simp
      | true => simpa [hx] using hbit
    · rfl

/-- Settles O35: the write is the plain write among the counting that every access does, and the counting moves no register but counters'
configurations. -/
theorem accessCodesDecideWhatAnAccessChanges : Obligations.AccessCodesDecideWhatAnAccessChanges := by
  unfold Obligations.AccessCodesDecideWhatAnAccessChanges
  intro s ag addr v d t off a hoff hcfg
  constructor
  · rintro ⟨hreach, hcheck⟩ hdesc hplain
    have hcount := elsewhere_countAcc s (a v) t 0x42 d.own
    have hrun : agentWrite s ag addr.toNat v = answer (plainWrite (countAcc s (a v) t 0x42 d.own) d addr.toNat v) ag 0 false := by
      rw [agentWrite_reached _ _ _ _ hreach, busWrite_register _ _ _ _ _ hoff hcheck hdesc hplain]
      rfl
    refine ⟨_, congrArg Host.Outcome.next hrun, by rw [Accepted, answer_accepted], fun n hn => ?_, ?_⟩
    · rw [plainVal_answer, bit_plainVal_plainWrite _ _ _ _ _ hn, plainVal_of_elsewhere hcount _ hcfg]
    · split
      · next hs => exact elsewhere_plainWrite_staged hcount d _ v ag hs
      · next hs => exact elsewhere_plainWrite_live hcount d _ v ag hs
  · rintro ⟨hreach, hcheck⟩ hdesc hgood hplain hs
    have hcount := elsewhere_countAcc (plainRead s d (a 0) addr.toNat).1 (a 0) t 0x42 d.own
    have hval : plainVal s d addr.toNat = rg s addr.toNat := by simp [plainVal, hs]
    obtain ⟨hcleared, hread⟩ := plainRead_live s d (a 0) addr.toNat hs
    have hrun : agentRead s ag addr.toNat =
        answer (countAcc (plainRead s d (a 0) addr.toNat).1 (a 0) t 0x42 d.own) ag (rg s addr.toNat) false := by
      rw [agentRead_reached _ _ _ hreach, busRead_register _ _ _ _ hoff hcheck hdesc hgood hplain, hval, BitVec.ofNat_toNat,
        BitVec.setWidth_eq]
      rfl
    refine ⟨_, congrArg Host.Outcome.next hrun, by rw [Accepted, answer_accepted], by rw [answer_accepted], ?_,
      (hread.trans (hcount.mono fun _ => False.elim)).trans (elsewhere_answer _ ag _ _)⟩
    rw [answer_accepted]
    exact (hcount.rg_eq hcfg).trans hcleared

end Sys2Proof.Machine

end

section
namespace Sys2Proof.Machine

/-- Settles O3: nothing is listed anywhere after reset. -/
theorem canonicalFormAtReset : Obligations.CanonicalFormAtReset := by
  unfold Obligations.CanonicalFormAtReset
  constructor <;> rfl

/-- The block after the scan port's BYPASS instruction: its identification register holds 0 (18 R602). -/
def bypassSelected : State := { State.reset with dbg := { ir := 31, idr := 0 } }

/-- The state is reached from reset by one command. -/
theorem exec_irUpdate_bypass : exec (.irUpdate 31) State.reset = .next bypassSelected := rfl

/-- Refutes O60: cluster reset keeps the scan port's identification register with its instruction (18 R600, R602), where the statement puts it
at its reset value. -/
theorem not_resetAndStartReachTheirStates : ¬ Obligations.ResetAndStartReachTheirStates := by
  unfold Obligations.ResetAndStartReachTheirStates
  intro h
  obtain ⟨hreset, _⟩ := h bypassSelected
  have hidr : (clusterReset bypassSelected).dbg.idr = (0x1160854F : Word) :=
    congrArg (fun t : State => t.dbg.idr) (Host.Outcome.next.inj hreset)
  exact absurd hidr (by decide)

end Sys2Proof.Machine

end

section
/-! ## Every table and memory keeps its canonical form -/

namespace Sys2Proof.Machine

/-! ### Tables of registers -/

/-- A table of registers with each value relative to what its key reads as unlisted: what `regReset` is to the one, 0 is to the other. -/
def relative (d : Nat → Word) (m : Sparse Word) : Sparse Word := m.map fun e => (e.1, e.2 ^^^ d e.1)

@[simp] theorem relative_cons (d : Nat → Word) (e : Nat × Word) (m : Sparse Word) :
    relative d (e :: m) = (e.1, e.2 ^^^ d e.1) :: relative d m := rfl

@[simp] theorem relative_nil (d : Nat → Word) : relative d [] = [] := rfl

theorem rwfFrom_eq_relative (d : Nat → Word) (m : Sparse Word) (lo : Nat) : rwfFrom d lo m = swfFrom 0 lo (relative d m) := by
  induction m generalizing lo with
  | nil => rfl
  | cons e m ih =>
    have hzero : e.2 ^^^ d e.1 = 0 ↔ e.2 = d e.1 := BitVec.xor_eq_zero_iff
    simp only [relative_cons, rwfFrom, swfFrom, ne_eq, hzero, ih]

theorem rwf_eq_relative (m : Sparse Word) : rwf m = swf 0 (relative regReset m) := rwfFrom_eq_relative _ m 0

theorem relative_sdel (d : Nat → Word) (m : Sparse Word) (k : Nat) : relative d (sdel m k) = sdel (relative d m) k := by
  induction m with
  | nil => rfl
  | cons e m ih => by_cases hk : e.1 = k <;> simp [sdel, hk, ih]

theorem relative_sins (d : Nat → Word) (m : Sparse Word) (k : Nat) (v : Word) :
    relative d (sins m k v) = sins (relative d m) k (v ^^^ d k) := by
  induction m with
  | nil => rfl
  | cons e m ih => by_cases hk : k < e.1 <;> simp [sins, hk, ih]

theorem relative_sput (d : Nat → Word) (m : Sparse Word) (k : Nat) (v : Word) :
    relative d (sput (d k) m k v) = sput 0 (relative d m) k (v ^^^ d k) := by
  have hzero : v ^^^ d k = 0 ↔ v = d k := BitVec.xor_eq_zero_iff
  unfold sput
  by_cases hv : v = d k
  · rw [if_pos hv, if_pos (hzero.mpr hv), relative_sdel]
  · rw [if_neg hv, if_neg (mt hzero.mp hv), relative_sins, relative_sdel]

theorem rwf_sput {m : Sparse Word} (k : Nat) (v : Word) (h : rwf m = true) : rwf (sput (regReset k) m k v) = true := by
  rw [rwf_eq_relative] at h ⊢
  rw [relative_sput]
  exact swf_sput _ _ _ _ h

theorem rwf_filter {m : Sparse Word} (p : Nat × Word → Bool) (h : rwf m = true) : rwf (m.filter p) = true := by
  rw [rwf_eq_relative] at h ⊢
  have hfilter : relative regReset (m.filter p) = (relative regReset m).filter fun e => p (e.1, e.2 ^^^ regReset e.1) := by
    simp only [relative, List.filter_map, Function.comp_def, BitVec.xor_assoc, BitVec.xor_self, BitVec.xor_zero]
  rw [hfilter]
  exact swf_filter _ _ _ h

/-- A table whose entries change in place, without those that then read as the default. -/
theorem swf_filter_map {α : Type} [DecidableEq α] (d : α) (g : Nat × α → Nat × α) (hg : ∀ e, (g e).1 = e.1) {m : Sparse α}
    (h : swf d m = true) : swf d ((m.map g).filter fun e => decide (e.2 ≠ d)) = true := by
  unfold swf at h ⊢
  generalize 0 = lo at h ⊢
  induction m generalizing lo with
  | nil => rfl
  | cons e m ih =>
    obtain ⟨k, v⟩ := e
    simp only [swfFrom, Bool.and_eq_true, decide_eq_true_eq] at h
    obtain ⟨⟨hlo, _⟩, hm⟩ := h
    have hkey : (g (k, v)).1 = k := hg (k, v)
    rw [List.map_cons, List.filter_cons]
    split
    · next hv =>
      simp only [swfFrom, Bool.and_eq_true, decide_eq_true_eq] at hv ⊢
      rw [hkey]
      exact ⟨⟨hlo, hv⟩, ih _ hm⟩
    · exact swfFrom_mono _ _ _ _ (by omega) (ih _ hm)

/-! ### The writers of the state -/

section Writers

variable {s : State} {k a : Nat} (hs : Canonical s)

include hs

theorem Canonical.setTile {x : Tile} : Canonical (setTile s k x) := { hs with tiles := swf_sput _ _ _ _ hs.tiles }
theorem Canonical.setCtx {x : Ctx} : Canonical (setCtx s k x) := { hs with ctxs := swf_sput _ _ _ _ hs.ctxs }
theorem Canonical.setEng {x : Engine} : Canonical (setEng s k x) := { hs with engs := swf_sput _ _ _ _ hs.engs }
theorem Canonical.setSrc {x : Src} : Canonical (setSrc s k x) := { hs with srcs := swf_sput _ _ _ _ hs.srcs }
theorem Canonical.setPort {x : Port} : Canonical (setPort s k x) := { hs with ports := swf_sput _ _ _ _ hs.ports }
theorem Canonical.setFlow {x : Flow} : Canonical (setFlow s k x) := { hs with flows := swf_sput _ _ _ _ hs.flows }
theorem Canonical.setTxQ {x : TxQ} : Canonical (setTxQ s k x) := { hs with txqs := swf_sput _ _ _ _ hs.txqs }
theorem Canonical.setPair {x : Pair} : Canonical (setPair s k x) := { hs with pairs := swf_sput _ _ _ _ hs.pairs }
theorem Canonical.setSeq {x : Seq} : Canonical (setSeq s k x) := { hs with seqs := swf_sput _ _ _ _ hs.seqs }
theorem Canonical.setTmr {x : Tmr} : Canonical (setTmr s k x) := { hs with tmrs := swf_sput _ _ _ _ hs.tmrs }
theorem Canonical.setPwm {x : Pwm} : Canonical (setPwm s k x) := { hs with pwms := swf_sput _ _ _ _ hs.pwms }
theorem Canonical.setMbx {x : Mbx} : Canonical (setMbx s k x) := { hs with mbxs := swf_sput _ _ _ _ hs.mbxs }
theorem Canonical.setPmc {x : Pmc} : Canonical (setPmc s k x) := { hs with pmcs := swf_sput _ _ _ _ hs.pmcs }
theorem Canonical.setSmp {x : Smp} : Canonical (setSmp s k x) := { hs with smps := swf_sput _ _ _ _ hs.smps }
theorem Canonical.setLink {x : Link} : Canonical (setLink s k x) := { hs with links := swf_sput _ _ _ _ hs.links }
theorem Canonical.setCodeTag {x : CodeTag} : Canonical (setCodeTag s k x) := { hs with codeTag := swf_sput _ _ _ _ hs.codeTag }
theorem Canonical.setUWord {x : UWord} : Canonical (setUWord s k x) := { hs with wstore := swf_sput _ _ _ _ hs.wstore }
theorem Canonical.setDec {x : Dec} : Canonical (setDec s k x) := { hs with dec := swf_sput _ _ _ _ hs.dec }
theorem Canonical.setMirror {x : Mirror} : Canonical (setMirror s k x) := { hs with mirror := swf_sput _ _ _ _ hs.mirror }
theorem Canonical.setFn {x : Fn} : Canonical (setFn s k x) := { hs with fns := swf_sput _ _ _ _ hs.fns }
theorem Canonical.setLock {x : Word} : Canonical (setLock s k x) := { hs with locks := swf_sput _ _ _ _ hs.locks }
theorem Canonical.modTile {g : Tile → Tile} : Canonical (modTile s k g) := hs.setTile
theorem Canonical.modCtx {g : Ctx → Ctx} : Canonical (modCtx s k g) := hs.setCtx
theorem Canonical.modEng {g : Engine → Engine} : Canonical (modEng s k g) := hs.setEng
theorem Canonical.modSrc {g : Src → Src} : Canonical (modSrc s k g) := hs.setSrc
theorem Canonical.modPort {g : Port → Port} : Canonical (modPort s k g) := hs.setPort
theorem Canonical.modFlow {g : Flow → Flow} : Canonical (modFlow s k g) := hs.setFlow
theorem Canonical.modTxQ {g : TxQ → TxQ} : Canonical (modTxQ s k g) := hs.setTxQ
theorem Canonical.modPair {g : Pair → Pair} : Canonical (modPair s k g) := hs.setPair
theorem Canonical.modSeq {g : Seq → Seq} : Canonical (modSeq s k g) := hs.setSeq
theorem Canonical.modTmr {g : Tmr → Tmr} : Canonical (modTmr s k g) := hs.setTmr
theorem Canonical.modPwm {g : Pwm → Pwm} : Canonical (modPwm s k g) := hs.setPwm
theorem Canonical.modMbx {g : Mbx → Mbx} : Canonical (modMbx s k g) := hs.setMbx
theorem Canonical.modPmc {g : Pmc → Pmc} : Canonical (modPmc s k g) := hs.setPmc
theorem Canonical.modSmp {g : Smp → Smp} : Canonical (modSmp s k g) := hs.setSmp
theorem Canonical.modLink {g : Link → Link} : Canonical (modLink s k g) := hs.setLink
theorem Canonical.modCodeTag {g : CodeTag → CodeTag} : Canonical (modCodeTag s k g) := hs.setCodeTag
theorem Canonical.modUWord {g : UWord → UWord} : Canonical (modUWord s k g) := hs.setUWord
theorem Canonical.modDec {g : Dec → Dec} : Canonical (modDec s k g) := hs.setDec
theorem Canonical.modMirror {g : Mirror → Mirror} : Canonical (modMirror s k g) := hs.setMirror
theorem Canonical.modFn {g : Fn → Fn} : Canonical (modFn s k g) := hs.setFn
theorem Canonical.setRg {v : Word} : Canonical (setRg s a v) := { hs with regs := rwf_sput _ _ hs.regs }
theorem Canonical.modRg {g : Word → Word} : Canonical (modRg s a g) := hs.setRg
theorem Canonical.setSg {v : Word} : Canonical (setSg s a v) := { hs with staged := rwf_sput _ _ hs.staged }
theorem Canonical.memWriteBytes {bs : List Byte} : Canonical (memWriteBytes s a bs) :=
  { hs with mem := Memory.wf_writeBytes _ _ _ _ hs.mem }

/-- What is no table and no memory is free. -/
theorem Canonical.rest {pending : List Instr} {nTiles fresh : Nat} {begun kpTest : Bool} {result : Result} {badBlk : List Nat}
    {hdr : Option Hdr} {nvm : Nvm} {sec : Sec} {hp : HostPort} {dbg : Dbg} :
    Canonical { s with pending, nTiles, begun, kpTest, fresh, result, badBlk, hdr, nvm, sec, hp, dbg } := { hs with }

theorem Canonical.dropRegs {p : Nat × Word → Bool} : Canonical { s with regs := s.regs.filter p } :=
  { hs with regs := rwf_filter _ hs.regs }

theorem Canonical.writeCode {bs : List Byte} : Canonical { s with code := writeBytes 0 s.code a bs } :=
  { hs with code := Memory.wf_writeBytes _ _ _ _ hs.code }

theorem Canonical.eraseCode {n : Nat} : Canonical { s with code := eraseBytes s.code a n } :=
  { hs with code := Memory.wf_eraseBytes _ _ _ _ hs.code }

theorem Canonical.eraseMem {n : Nat} {l : List Nat} : Canonical { s with mem := eraseBytes s.mem a n, badBlk := l } :=
  { hs with mem := Memory.wf_eraseBytes _ _ _ _ hs.mem }

theorem Canonical.writeFlash {bs : List Byte} : Canonical { s with flash := writeBytes 0xFF s.flash a bs } :=
  { hs with flash := Memory.wf_writeBytes _ _ _ _ hs.flash }

theorem Canonical.eraseFlash {n : Nat} : Canonical { s with flash := eraseBytes s.flash a n } :=
  { hs with flash := Memory.wf_eraseBytes _ _ _ _ hs.flash }

end Writers

/-! ### Branches and repetitions -/

theorem Canonical.ite {c : Prop} [Decidable c] {u v : State} (hu : Canonical u) (hv : Canonical v) : Canonical (if c then u else v) := by
  split
  · exact hu
  · exact hv

theorem Canonical.fst_ite {α : Type} {c : Prop} [Decidable c] {p q : State × α} (hp : Canonical p.1) (hq : Canonical q.1) :
    Canonical (if c then p else q).1 := by
  split
  · exact hp
  · exact hq

theorem Canonical.snd_ite {α : Type} {c : Prop} [Decidable c] {p q : α × State} (hp : Canonical p.2) (hq : Canonical q.2) :
    Canonical (if c then p else q).2 := by
  split
  · exact hp
  · exact hq

theorem Canonical.pair {α : Type} {u : State} {x : α} (hu : Canonical u) : Canonical (u, x).1 := hu

theorem Canonical.foldl {β : Type} {l : List β} {g : State → β → State} {s : State} (hs : Canonical s)
    (hg : ∀ u x, Canonical u → Canonical (g u x)) : Canonical (l.foldl g s) :=
  List.foldlRecOn l g hs fun u hu x _ => hg u x hu

theorem Canonical.fst_foldl {α β : Type} {l : List β} {g : State × α → β → State × α} {p : State × α} (hp : Canonical p.1)
    (hg : ∀ q x, Canonical q.1 → Canonical (g q x).1) : Canonical (l.foldl g p).1 :=
  List.foldlRecOn (motive := fun q => Canonical q.1) l g hp fun q hq x _ => hg q x hq

theorem Canonical.of_fst {α : Type} {p : State × α} {u : State} {x : α} (hp : Canonical p.1) (h : p = (u, x)) : Canonical u := by
  rwa [h] at hp

/-- The state that a placing answers, where it answers one, is in canonical form. -/
def SomeKept (r : Option State) : Prop := ∀ u, r = some u → Canonical u

theorem SomeKept.some {u : State} (hu : Canonical u) : SomeKept (some u) := fun _ h => Option.some.inj h ▸ hu

theorem SomeKept.none : SomeKept none := fun u h => (Option.some_ne_none u h.symm).elim

theorem SomeKept.ite {c : Prop} [Decidable c] {q r : Option State} (hq : SomeKept q) (hr : SomeKept r) : SomeKept (if c then q else r) := by
  split
  · exact hq
  · exact hr

theorem SomeKept.bind {r : Option State} {g : State → Option State} (hr : SomeKept r) (hg : ∀ u, Canonical u → SomeKept (g u)) :
    SomeKept (r.bind g) := by
  intro t ht
  obtain ⟨u, hu, hgu⟩ := Option.bind_eq_some_iff.mp ht
  exact hg u (hr u hu) t hgu

theorem SomeKept.foldl {β : Type} {l : List β} {g : Option State → β → Option State} {r : Option State} (hr : SomeKept r)
    (hg : ∀ q x, SomeKept q → SomeKept (g q x)) : SomeKept (l.foldl g r) :=
  List.foldlRecOn l g hr fun q hq x _ => hg q x hq

/-- The next state that a command answers, where it answers one, is in canonical form. -/
def Kept (o : Host.Outcome State Fault Refusal) : Prop := ∀ t, o = .next t → Canonical t

theorem Kept.next {t : State} (ht : Canonical t) : Kept (.next t) := fun _ h => Host.Outcome.next.inj h ▸ ht

end Sys2Proof.Machine

/-! ## One lemma for each function that answers a state

`Canonical.f` says that the model's function `f` keeps the canonical form; the lemmas stand in the order of the model's files. Each follows
from those of the functions that `f` calls, applied to the states in the order in which `f` makes them; `s` is the state before. -/

namespace Sys2Proof.Machine

variable {s : State} {t k n p c f a i m e o q off lo code : Nat}

/-! ### Free values -/

theorem Canonical.freshOf (hs : Canonical s) : Canonical (freshOf s).2 := hs.rest

/-! ### Operations shared by all units -/

theorem Canonical.eventTime (hs : Canonical s) : Canonical (eventTime s t).1 := hs.freshOf
theorem Canonical.memWrite {v : Nat} (hs : Canonical s) : Canonical (memWrite s a n v) := hs.memWriteBytes
theorem Canonical.unlose {b : Nat} (hs : Canonical s) : Canonical (unlose s t b) := hs.modTile
theorem Canonical.requestBuf (hs : Canonical s) : Canonical (requestBuf s t) := .ite hs hs.setTile

theorem Canonical.raiseEdge (hs : Canonical s) : Canonical (raiseEdge s t n) :=
  .ite hs (.ite hs.modSrc (.ite hs.modSrc.requestBuf hs.modSrc))

theorem Canonical.sendLevel {on : Bool} (hs : Canonical s) : Canonical (sendLevel s t n on) :=
  .ite hs (.ite hs.modSrc (.ite hs.modSrc.requestBuf hs.modSrc))

theorem Canonical.levelMsg {on : Bool} {at? : Option Nat} (hs : Canonical s) : Canonical (levelMsg s t n on at?).1 :=
  .fst_ite (.ite hs hs.sendLevel) (.ite hs.sendLevel hs)

theorem Canonical.countDeny (hs : Canonical s) : Canonical (countDeny s t p) := hs.modRg
theorem Canonical.pmcAdd (hs : Canonical s) : Canonical (pmcAdd s t i k) := .ite hs.setPmc hs.setPmc.modRg.raiseEdge

theorem Canonical.smpTake {o : Occ} (hs : Canonical s) : Canonical (smpTake s t e n o) := by
  unfold Machine.smpTake
  dsimp only
  split
  · exact hs
  · exact .ite (.ite hs.setSmp (.ite hs.setSmp.raiseEdge hs.setSmp)) hs

theorem Canonical.countEvent {o : Occ} (hs : Canonical s) : Canonical (countEvent s t o k) := by
  unfold Machine.countEvent
  split
  · refine (hs.foldl fun _ _ ht => ?_).smpTake
    split
    · exact .ite ht.pmcAdd ht
    · exact ht
  · refine hs.foldl fun _ _ ht => ?_
    split
    · exact .ite ht.pmcAdd ht
    · exact ht

theorem Canonical.countTile (hs : Canonical s) : Canonical (countTile s t code p k) := hs.countEvent

theorem Canonical.countCtx {latency : Nat} (hs : Canonical s) : Canonical (countCtx s c code k latency) := by
  unfold Machine.countCtx
  exact hs.countEvent

theorem Canonical.setUnack (hs : Canonical s) : Canonical (setUnack s t) := hs.modRg

theorem Canonical.writeFltP {r : FaultRec} (hs : Canonical s) : Canonical (writeFltP s t r) :=
  (Canonical.ite hs.modRg hs.setRg.setRg.setRg.setRg).raiseEdge

theorem Canonical.writeFault {r : FaultRec} (hs : Canonical s) : Canonical (writeFault s t r) :=
  have ht := hs.setRg.setRg.setRg.setRg.setRg.writeFltP
  (Canonical.ite ht.setUnack ht).raiseEdge

theorem Canonical.copyMasked {unit inst parcel ctx : Nat} (hs : Canonical s) : Canonical (copyMasked s t unit inst parcel ctx) :=
  hs.writeFault

theorem Canonical.fltCount {len : Nat} (hs : Canonical s) : Canonical (fltCount s t lo len) := hs.modRg

/-! ### Plain registers and held halves -/

theorem Canonical.plainRead {d : Desc} {acc : Acc} (hs : Canonical s) : Canonical (plainRead s d acc a).1 := .ite hs.setRg hs
theorem Canonical.plainWrite {d : Desc} {v : Word} (hs : Canonical s) : Canonical (plainWrite s d a v) := .ite hs.setSg hs.setRg

theorem Canonical.setHeldLo {acc : Acc} {key : Nat} {v? : Option Word} (hs : Canonical s) : Canonical (setHeldLo s acc key v?) :=
  .ite hs.modCtx hs.rest

/-! ### Event sources -/

theorem Canonical.raiseField (hs : Canonical s) : Canonical (raiseField s t off lo) := hs.raiseEdge
theorem Canonical.deliver {h : Option Nat} (hs : Canonical s) : Canonical (deliver s t n h) := hs.modSrc
theorem Canonical.completeAll (hs : Canonical s) : Canonical (completeAll s c) := hs.foldl fun _ _ ht => .ite ht.modSrc ht
theorem Canonical.completeSrc (hs : Canonical s) : Canonical (completeSrc s t n) := hs.modSrc
theorem Canonical.clearFnSrcs (hs : Canonical s) : Canonical (clearFnSrcs s f) := hs.foldl fun _ _ ht => .ite ht.modSrc ht

theorem Canonical.evcClaim {acc : Acc} (hs : Canonical s) : Canonical (evcClaim s acc t p).1 := by
  unfold Machine.evcClaim
  split
  · exact hs
  · exact (Canonical.ite hs.deliver hs).pair

theorem Canonical.evcComplete {v : Word} (hs : Canonical s) : Canonical (evcComplete s t p v).1 :=
  .fst_ite hs (.fst_ite hs (.fst_ite hs.completeSrc.pair hs.modRg.pair))

theorem Canonical.ringDoorbell {v : Word} (hs : Canonical s) : Canonical (ringDoorbell s t v) := hs.raiseEdge.countTile
theorem Canonical.evcStatWrite {v : Word} (hs : Canonical s) : Canonical (evcStatWrite s t n v) := .ite hs.modSrc.raiseEdge hs.modSrc

theorem Canonical.evcRead {d : Desc} {acc : Acc} (hs : Canonical s) : Canonical (evcRead s d acc t o).1 := by
  unfold Machine.evcRead
  refine .fst_ite hs (.fst_ite ?_ (.fst_ite ?_ hs))
  · split
    · exact hs.evcClaim
    · exact hs
    · exact hs
  · split
    · exact hs
    · exact hs
    · exact hs.plainRead

theorem Canonical.evcWrite {d : Desc} {acc : Acc} {v : Word} (hs : Canonical s) : Canonical (evcWrite s d acc t o v).1 :=
  .fst_ite (.fst_ite hs.ringDoorbell hs) (.fst_ite (.fst_ite hs.evcComplete hs.plainWrite) (.fst_ite
    (.fst_ite hs.evcStatWrite hs.plainWrite) hs.plainWrite))

/-! ### Contexts and engines -/

theorem Canonical.resched (hs : Canonical s) : Canonical (resched s t e) := by
  unfold Machine.resched
  split
  · exact hs
  · exact .ite hs (hs.foldl fun _ _ ht => .ite ht ht.modCtx).modCtx.countCtx

theorem Canonical.reschedOf (hs : Canonical s) : Canonical (reschedOf s c) := hs.resched

theorem Canonical.activate {vec : BitVec 20} {asrc : BitVec 10} (hs : Canonical s) : Canonical (activate s c vec asrc) :=
  hs.modCtx.countCtx

theorem Canonical.startServe (hs : Canonical s) : Canonical (startServe s k c i) := by
  unfold Machine.startServe
  dsimp only
  split
  · exact hs
  · exact hs.setPair.setRg.setRg.setRg.setRg.activate

theorem Canonical.nextFrame (hs : Canonical s) : Canonical (nextFrame s c) := by
  unfold Machine.nextFrame
  split
  · exact .ite hs.startServe hs
  · exact hs

theorem Canonical.closeFrame (hs : Canonical s) : Canonical (closeFrame s c) := hs.foldl fun _ _ ht => ht.modPair
theorem Canonical.endActivation (hs : Canonical s) : Canonical (endActivation s c) := hs.closeFrame.completeAll.modCtx.nextFrame

theorem Canonical.writeXr {kind cause ctx : Nat} {pc det addr : Word} (hs : Canonical s) :
    Canonical (writeXr s t p kind cause ctx pc det addr) :=
  (Canonical.ite hs.modRg hs.setRg.setRg.setRg.setRg).raiseEdge

theorem Canonical.abandon (hs : Canonical s) : Canonical (abandon s c) := hs.modCtx.endActivation

theorem Canonical.unhandled {kind cause : Nat} {pc det addr : Word} (hs : Canonical s) :
    Canonical (unhandled s c kind cause pc det addr) :=
  hs.abandon.writeXr

theorem Canonical.lockContexts (hs : Canonical s) : Canonical (lockContexts s t e) := hs.foldl fun _ _ ht => ht.modCtx
theorem Canonical.lockEngine (hs : Canonical s) : Canonical (lockEngine s c) := hs.modEng.lockContexts.writeFault
theorem Canonical.retireEngine (hs : Canonical s) : Canonical (retireEngine s t e) := hs.modEng.lockContexts.writeFault
theorem Canonical.abandonFrame (hs : Canonical s) : Canonical (abandonFrame s c) := hs.foldl fun _ _ ht => ht.modPair

theorem Canonical.engineFault (hs : Canonical s) : Canonical (engineFault s c) := by
  unfold Machine.engineFault
  dsimp only
  refine .ite hs.lockEngine (.ite hs.fltCount ?_)
  split
  · exact
      have ht := hs.fltCount.countCtx.abandonFrame.modCtx.modEng
      .ite ht.retireEngine ht
  · exact hs.fltCount.countCtx.abandonFrame.modCtx.modEng

theorem Canonical.zeroCtx (hs : Canonical s) : Canonical (zeroCtx s c) := hs.setCtx
theorem Canonical.residentCtx (hs : Canonical s) : Canonical (residentCtx s c) := hs.modCtx
theorem Canonical.parkCtx (hs : Canonical s) : Canonical (parkCtx s c) := hs.modCtx
theorem Canonical.winSw {v : Word} (hs : Canonical s) : Canonical (winSw s c v) := .ite hs.rest hs.modCtx

theorem Canonical.winTsbp {v : Word} (hs : Canonical s) : Canonical (winTsbp s c v).1 := .fst_ite hs.modCtx.pair hs

theorem Canonical.winV3 {v : Word} (hs : Canonical s) : Canonical (winV3 s c v) := hs.modCtx

theorem Canonical.winWrite {v : Word} (hs : Canonical s) : Canonical (winWrite s t o v).1 := by
  unfold Machine.winWrite
  split
  · exact hs.modCtx.pair
  · exact hs.winSw.pair
  · exact hs.winTsbp
  · exact hs.modCtx.pair
  · exact hs.winV3.pair
  · exact hs.modCtx.pair

/-! ### Chain links: sending -/

theorem Canonical.drainLink (hs : Canonical s) : Canonical (drainLink s t k) := .ite hs.modLink hs
theorem Canonical.putOnLink {fl : Flit} (hs : Canonical s) : Canonical (putOnLink s t k fl) := hs.modLink.drainLink.countTile
theorem Canonical.numberFlit {fl : Flit} (hs : Canonical s) : Canonical (numberFlit s t fl).1 := hs.setTile

theorem Canonical.sendFlit {fl : Flit} (hs : Canonical s) : Canonical (sendFlit s t fl).1 := by
  unfold Machine.sendFlit
  split
  · exact hs
  · exact hs.numberFlit.putOnLink.countTile.pair

theorem Canonical.carryHop {fl : Flit} (hs : Canonical s) : Canonical (carryHop s t k fl) := hs.modLink.modLink.countTile

theorem Canonical.carryFlit {s : State} {t : Nat} {fl : Flit} {eff : Flit → State → State} (hs : Canonical s)
    (heff : ∀ x u, Canonical u → Canonical (eff x u)) : Canonical (carryFlit s t fl eff).1 := by
  unfold Machine.carryFlit
  split
  · exact hs
  · refine .fst_ite hs.sendFlit (heff _ _ (Canonical.modTile (.ite hs.numberFlit.carryHop.countTile ?_)))
    split
    · exact hs.numberFlit.carryHop.countTile.carryHop
    · exact hs.numberFlit.carryHop.countTile

theorem Canonical.nextTag (hs : Canonical s) : Canonical (nextTag s t).1 := hs.setTile
theorem Canonical.linkNotice (hs : Canonical s) : Canonical (linkNotice s t) := hs.foldl fun _ _ ht => ht.numberFlit.putOnLink

theorem Canonical.setLinkState {g : Link → Link} (hs : Canonical s) : Canonical (setLinkState s t k g) :=
  .ite hs.modLink hs.modLink.raiseEdge.linkNotice

theorem Canonical.maskReplay {ls : List (Flit × Nat)} (hs : Canonical s) : Canonical (maskReplay s t k ls) :=
  .ite (hs.foldl fun _ _ ht => ht.copyMasked) (hs.foldl fun _ _ ht => ht.copyMasked).modLink

theorem Canonical.reroute (hs : Canonical s) : Canonical (reroute s t k) := by
  unfold Machine.reroute
  refine hs.maskReplay.setLink.foldl fun _ _ ht => ?_
  split
  · exact ht.putOnLink
  · exact ht.modLink

theorem Canonical.failLink (hs : Canonical s) : Canonical (failLink s t k) := by
  unfold Machine.failLink
  exact hs.modRg.modLink.raiseEdge.writeFault.reroute.linkNotice.setLinkState

theorem Canonical.takeAck {lack : BitVec 10} (hs : Canonical s) : Canonical (takeAck s t k lack) := hs.modLink
theorem Canonical.takeLack {lack : BitVec 10} (hs : Canonical s) : Canonical (takeLack s t k lack) := hs.takeAck.drainLink

theorem Canonical.replayFrom {lseq : BitVec 10} (hs : Canonical s) : Canonical (replayFrom s t k lseq) := by
  unfold Machine.replayFrom
  exact
    have ht := hs.takeAck.maskReplay.modLink.modRg
    .ite ht.failLink ht.drainLink

theorem Canonical.lnkRead {d : Desc} {acc : Acc} (hs : Canonical s) : Canonical (lnkRead s d acc t o).1 :=
  .fst_ite hs (.fst_ite hs (.fst_ite hs.plainRead (.fst_ite hs (.fst_ite hs (.fst_ite hs hs.plainRead)))))

theorem Canonical.retrainLink (hs : Canonical s) : Canonical (retrainLink s t k) := .ite hs.setLinkState hs

theorem Canonical.lnkWrite {d : Desc} {v : Word} (hs : Canonical s) : Canonical (lnkWrite s d t o v).1 :=
  .fst_ite (.ite hs.retrainLink hs) hs.plainWrite

/-! ### Mailboxes and locks -/

theorem Canonical.mbxLevel (hs : Canonical s) : Canonical (mbxLevel s m) := by
  unfold Machine.mbxLevel
  exact hs.levelMsg.modMbx

theorem Canonical.mbxDeliver {words : List Word} {ident : Word} (hs : Canonical s) : Canonical (mbxDeliver s m words ident) :=
  hs.modMbx.mbxLevel.countTile

theorem Canonical.modHp {a : Acc} {g : HpStat → HpStat} (hs : Canonical s) : Canonical (modHp s a g) := hs.rest

theorem Canonical.setOpenMsg {a : Acc} {x : Option (Nat × List Word)} (hs : Canonical s) : Canonical (setOpenMsg s a x) :=
  .ite hs.modCtx hs.modHp

theorem Canonical.closeMsg {a : Acc} {words : List Word} (hs : Canonical s) : Canonical (closeMsg s a m words).1 := by
  unfold Machine.closeMsg
  exact
    have ht := Canonical.fst_foldl hs.setOpenMsg.pair fun _ _ ht => ht.sendFlit.pair
    .fst_ite hs.setOpenMsg.pair (.fst_ite (.fst_ite hs.setOpenMsg.pair (.fst_ite hs.setOpenMsg.mbxDeliver.pair
      (Canonical.ite hs.setOpenMsg hs.setOpenMsg.modHp).pair)) (Canonical.ite ht ht.countDeny).pair)

theorem Canonical.mbxSend {a : Acc} {v : Word} {last : Bool} (hs : Canonical s) : Canonical (mbxSend s a m v last).1 := by
  unfold Machine.mbxSend
  refine .fst_ite (Canonical.closeMsg ?_).pair (Canonical.setOpenMsg ?_).pair
  · split
    · exact hs
    · exact .fst_ite hs hs.closeMsg.pair
  · split
    · exact hs
    · exact .fst_ite hs hs.closeMsg.pair

theorem Canonical.mbxMask (hs : Canonical s) : Canonical (mbxMask s m) := by
  unfold Machine.mbxMask
  split
  · exact .ite hs.modMbx.copyMasked hs
  · exact hs

theorem Canonical.mbxAck {v : Word} (hs : Canonical s) : Canonical (mbxAck s m v) := by
  unfold Machine.mbxAck
  dsimp only
  split
  · exact .ite (.ite hs.mbxMask.setMbx.mbxLevel.raiseEdge hs.mbxMask.setMbx) hs.mbxMask.modRg
  · exact hs.mbxMask.modRg

theorem Canonical.mbxReset (hs : Canonical s) : Canonical (mbxReset s m) := .ite hs hs.modMbx.modRg.mbxLevel.raiseEdge

theorem Canonical.lockRead {a : Acc} (hs : Canonical s) : Canonical (lockRead s a n).1 :=
  .fst_ite (.fst_ite hs.setLock.countTile hs) (.fst_ite hs hs.countTile)

theorem Canonical.lockRelease {a : Acc} (hs : Canonical s) : Canonical (lockRelease s a n) := .ite hs.setLock hs

theorem Canonical.freeLocks {s : State} {ok : Nat → Bool} (hs : Canonical s) : Canonical (freeLocks s ok) :=
  { hs with locks := swf_filter _ _ _ hs.locks }

theorem Canonical.mbxRead {d : Desc} {acc : Acc} (hs : Canonical s) : Canonical (mbxRead s d acc t o).1 := by
  unfold Machine.mbxRead
  dsimp only
  refine .fst_ite ?_ (.fst_ite hs.lockRead hs)
  split
  · exact (Canonical.ite hs.mbxMask hs).plainRead.pair
  · exact (Canonical.ite hs.mbxMask hs).pair
  · exact (Canonical.ite hs.mbxMask hs).pair
  · exact
      have ht := Canonical.ite hs.mbxMask hs
      .fst_ite ht (.fst_ite ht ht.plainRead)

theorem Canonical.mbxWrite {d : Desc} {acc : Acc} {v : Word} (hs : Canonical s) : Canonical (mbxWrite s d acc t o v).1 := by
  unfold Machine.mbxWrite
  refine .fst_ite ?_ (.fst_ite (.fst_ite hs.lockRelease.pair hs) (.fst_ite (.fst_ite hs.setLock.pair hs) hs))
  split
  · exact .fst_ite hs.plainWrite.pair hs
  · exact hs.mbxSend
  · exact hs.mbxSend
  · exact hs.mbxAck.pair
  · exact (Canonical.ite hs.mbxReset hs).pair
  · exact hs.plainWrite.pair

/-! ### Fault registers, tag groups and lost blocks -/

theorem Canonical.markGood {pos : Nat} (hs : Canonical s) : Canonical (markGood s t pos) := hs.rest
theorem Canonical.groupRebuilt {g : Nat} (hs : Canonical s) : Canonical (groupRebuilt s t g) := .ite hs.modTile.fltCount hs

theorem Canonical.tagReady {addr : Nat} (hs : Canonical s) : Canonical (tagReady s addr).1 :=
  .fst_ite hs.groupRebuilt.markGood.modTile.writeFault hs.groupRebuilt

theorem Canonical.loseBlock {s : State} {t b : Nat} (hs : Canonical s) : Canonical (loseBlock s t b) := by
  unfold Machine.loseBlock
  refine .ite hs.eraseMem.writeFault ?_
  split
  · exact hs.eraseMem.setTile.writeFault
  · exact hs.eraseMem.writeFault.writeFault.raiseEdge

theorem Canonical.fltRead {d : Desc} {acc : Acc} (hs : Canonical s) : Canonical (fltRead s d acc t o).1 := by
  unfold Machine.fltRead
  refine .fst_ite hs (.fst_ite hs (.fst_ite ?_ hs.plainRead))
  split
  · exact hs
  · exact hs

theorem Canonical.clearFltP (hs : Canonical s) : Canonical (clearFltP s t p) := .ite hs.modRg.modRg hs
theorem Canonical.lostClear {acc : Acc} {v : Word} (hs : Canonical s) : Canonical (lostClear s acc t v).1 := .fst_ite hs.unlose hs

theorem Canonical.fltWrite {d : Desc} {acc : Acc} {v : Word} (hs : Canonical s) : Canonical (fltWrite s d acc t o v).1 :=
  .fst_ite hs.lostClear (.fst_ite (.ite hs.clearFltP hs) hs.plainWrite)

/-! ### Frame ports: counters, rings and queues -/

theorem Canonical.bumpCnt (hs : Canonical s) : Canonical (bumpCnt s p i k) := .ite hs.setRg hs.setRg.modRg.raiseField
theorem Canonical.raisePort (hs : Canonical s) : Canonical (raisePort s p off lo) := hs.raiseField

theorem Canonical.hwPut {bs : List Byte} (hs : Canonical s) : Canonical (hwPut s t off bs) :=
  (hs.memWriteBytes.foldl fun _ _ ht => ht.rest.unlose).countTile

theorem Canonical.portTag (hs : Canonical s) : Canonical (portTag s p off).1 := .fst_ite hs.tagReady hs
theorem Canonical.portTags {l : List Nat} (hs : Canonical s) : Canonical (portTags s p l).1 := .fst_foldl hs fun _ _ ht => ht.portTag

theorem Canonical.putRecordBy {put : State → Nat → Nat → List Byte → State} {s : State} {p f idx : Nat} {bs : List Byte}
    (hs : Canonical s) (hput : ∀ u t a l, Canonical u → Canonical (put u t a l)) : Canonical (putRecordBy put s p f idx bs) :=
  (Canonical.ite (hput _ _ _ _ hs.portTag) hs.portTag.countDeny).raisePort

theorem Canonical.gapFault {idx cls outcome : Nat} (hs : Canonical s) : Canonical (gapFault s p f idx cls outcome) := hs.writeFault

theorem Canonical.gapRewrite (hs : Canonical s) : Canonical (gapRewrite s p f i) := by
  unfold Machine.gapRewrite
  dsimp only
  split
  · exact (hs.putRecordBy (fun _ _ _ _ ht => ht.hwPut)).gapFault
  · exact hs

theorem Canonical.bufferLost {b : Nat} (hs : Canonical s) : Canonical (bufferLost s t b) :=
  hs.loseBlock.foldl fun _ _ ht => .ite (ht.foldl fun _ _ hu => hu.foldl fun _ _ hv => .ite hv.gapRewrite hv) ht

theorem Canonical.touchMem (hs : Canonical s) : Canonical (touchMem s a n) := hs.foldl fun _ _ ht => .ite ht.bufferLost ht

theorem Canonical.hwWrite {bs : List Byte} (hs : Canonical s) : Canonical (hwWrite s t off bs) :=
  (Canonical.ite (.ite hs hs.touchMem) (Canonical.ite hs hs.touchMem).touchMem).hwPut

theorem Canonical.putRecord {idx : Nat} {bs : List Byte} (hs : Canonical s) : Canonical (putRecord s p f idx bs) :=
  hs.putRecordBy fun _ _ _ _ ht => ht.hwWrite

theorem Canonical.appendRecord {gran count skip : Nat} {bs : Word → List Byte} (hs : Canonical s) :
    Canonical (appendRecord s p f gran count skip bs) :=
  hs.setFlow.putRecord

theorem Canonical.gapInstead {gran skip len cls outcome : Nat} (hs : Canonical s) :
    Canonical (gapInstead s p f gran skip len cls outcome) :=
  hs.appendRecord.gapFault

theorem Canonical.retired {e : TxEntry} (hs : Canonical s) : Canonical (retired s p q e) := .ite hs.modTxQ.raisePort hs.modTxQ

theorem Canonical.retireAll (hs : Canonical s) : Canonical (retireAll s p) :=
  hs.foldl fun _ _ ht => ht.modTxQ.foldl fun _ _ hu => hu.bumpCnt.retired

theorem Canonical.doPost {lo hi : Word} {flit : Bool} (hs : Canonical s) : Canonical (doPost s p lo hi flit).1 :=
  .fst_ite hs.bumpCnt.retired.pair (.fst_ite (Canonical.ite hs.modRg.bumpCnt hs.modRg).pair hs.modTxQ.pair)

/-! ### Fly-through pairs -/

theorem Canonical.bumpPair (hs : Canonical s) : Canonical (bumpPair s k i n) := .ite hs (.ite hs.setRg hs.setRg.modRg.raiseField)
theorem Canonical.modFrame {g : PairFrame → PairFrame} (hs : Canonical s) : Canonical (modFrame s k i g) := hs.modPair

theorem Canonical.countFrame {f : PairFrame} (hs : Canonical s) : Canonical (countFrame s k f) :=
  have ht := (Canonical.ite hs.bumpPair hs.bumpPair).bumpPair.bumpPair.bumpPair.bumpPair.bumpPair.bumpPair
  .ite ht.modRg.raiseField ht

theorem Canonical.countSent {f : PairFrame} (hs : Canonical s) : Canonical (countSent s k f) := by
  unfold Machine.countSent
  exact hs.bumpCnt.bumpCnt.modPort

theorem Canonical.settleOne (hs : Canonical s) : Canonical (settleOne s k i) := by
  unfold Machine.settleOne
  split
  · exact hs
  · exact
      have ht := Canonical.ite hs.countFrame.modFrame hs
      .ite ht.countSent.modFrame ht

theorem Canonical.settle (hs : Canonical s) : Canonical (settle s k) := by
  unfold Machine.settle
  exact (hs.foldl fun _ _ ht => ht.settleOne).modPair

theorem Canonical.makeLate (hs : Canonical s) : Canonical (makeLate s k i) := by
  unfold Machine.makeLate
  split
  · exact hs
  · exact .ite hs (Canonical.ite hs.modFrame.bumpPair.bumpPair hs.modFrame).modRg.raiseField

theorem Canonical.pairStart {bytes : List Byte} {ns : DWord} (hs : Canonical s) : Canonical (pairStart s k bytes ns) := by
  unfold Machine.pairStart
  dsimp only
  split
  · exact .ite hs.settle.modPair.startServe.reschedOf hs.settle.modPair
  · exact hs.settle.modPair

theorem Canonical.wakeChunk (hs : Canonical s) : Canonical (wakeChunk s k) := by
  unfold Machine.wakeChunk
  split
  · exact .ite hs.modCtx.reschedOf hs
  · exact hs

theorem Canonical.closeRx {bad unsent : Bool} (hs : Canonical s) : Canonical (closeRx s k i bad unsent) := by
  unfold Machine.closeRx
  split
  · exact hs
  · exact (Canonical.ite hs.modFrame.modPair hs.modFrame).settle.wakeChunk

theorem Canonical.chunkDone (hs : Canonical s) : Canonical (chunkDone s k) := by
  unfold Machine.chunkDone
  split
  · split
    · exact hs
    · exact .ite hs.modFrame.wakeChunk (.ite hs.closeRx hs)
  · exact hs

theorem Canonical.pairEnd {bytes : List Byte} {rxer : Bool} (hs : Canonical s) : Canonical (pairEnd s k bytes rxer) := by
  unfold Machine.pairEnd
  split
  · exact hs
  · exact hs.closeRx

theorem Canonical.chunkOut (hs : Canonical s) : Canonical (chunkOut s k) := by
  unfold Machine.chunkOut
  split
  · exact hs
  · split
    · exact hs
    · exact .ite hs (Canonical.ite hs.modFrame.countTile.makeLate hs).modFrame.settle

theorem Canonical.egressStart (hs : Canonical s) : Canonical (egressStart s k) := by
  unfold Machine.egressStart
  split
  · exact hs.modFrame.settle
  · exact hs

theorem Canonical.lostFrame {f : PairFrame} (hs : Canonical s) : Canonical (lostFrame s k i f) :=
  .ite hs.modFrame.bumpPair.modRg.raiseField hs.modFrame

theorem Canonical.egressLost (hs : Canonical s) : Canonical (egressLost s p) :=
  hs.foldl fun _ _ ht => .ite (Canonical.ite (ht.settle.foldl fun _ _ hu => .ite hu.lostFrame hu).modPair
    (ht.settle.foldl fun _ _ hu => .ite hu.lostFrame hu)).settle ht

theorem Canonical.settleInto (hs : Canonical s) : Canonical (settleInto s p) := hs.foldl fun _ _ ht => .ite ht.settle ht
theorem Canonical.pairCodeError (hs : Canonical s) : Canonical (pairCodeError s k) := hs.modPair
theorem Canonical.resetPair (hs : Canonical s) : Canonical (resetPair s k) := hs.modPair.settle.wakeChunk

theorem Canonical.schrTake (hs : Canonical s) : Canonical (schrTake s k).1 := by
  unfold Machine.schrTake
  split
  · exact hs.modPair.pair
  · split
    · exact hs.modPair.pair
    · exact .fst_ite hs.modPair.pair (.fst_ite (.fst_ite hs.modPair.pair hs) (.fst_ite hs.modPair.pair
        (.fst_ite hs hs.modFrame.modPair.countTile.pair)))

theorem Canonical.schwPut {v : Vec} (hs : Canonical s) : Canonical (schwPut s k v).1 := by
  unfold Machine.schwPut
  split
  · split
    · exact hs
    · exact .fst_ite hs.modFrame.pair (Canonical.ite hs.bumpPair hs).modFrame.makeLate.settle.pair
  · exact hs

theorem Canonical.schRead {d : Desc} {acc : Acc} (hs : Canonical s) : Canonical (schRead s d acc t o).1 := .fst_ite hs hs.plainRead

theorem Canonical.schWrite {d : Desc} {v : Word} (hs : Canonical s) : Canonical (schWrite s d t o v).1 := by
  unfold Machine.schWrite
  split
  · exact .fst_ite hs.plainWrite.modPair.pair hs
  · exact .fst_ite hs.plainWrite.pair hs
  · exact hs.plainWrite.pair

/-! ### Frame ports: reception, transmission and link -/

theorem Canonical.takeIn {bs : List Byte} (hs : Canonical s) : Canonical (takeIn s p bs).1 := by
  unfold Machine.takeIn
  refine .fst_ite hs (.fst_ite hs (.fst_ite hs ?_))
  split
  · exact hs
  · refine .fst_ite (Canonical.ite hs hs.modFlow).pair ?_
    split
    · exact (Canonical.ite hs hs.modFlow).pair
    · exact (Canonical.ite hs hs.modFlow).pair

theorem Canonical.rxStart {bs : List Byte} (hs : Canonical s) : Canonical (rxStart s p bs) := by
  unfold Machine.rxStart
  dsimp only
  exact .ite hs (Canonical.ite hs.eventTime.pairStart hs.eventTime).takeIn.modPort

theorem Canonical.countGood {bs : List Byte} (hs : Canonical s) : Canonical (countGood s p bs) :=
  .ite hs.bumpCnt.bumpCnt.bumpCnt.bumpCnt.bumpCnt hs.bumpCnt.bumpCnt.bumpCnt.bumpCnt

theorem Canonical.pauseQueue {d : Nat} (hs : Canonical s) : Canonical (pauseQueue s p q d) := .ite hs hs.modTxQ

theorem Canonical.rxPause {bs : List Byte} (hs : Canonical s) : Canonical (rxPause s p bs) :=
  .ite hs.bumpCnt (.ite (.ite (hs.bumpCnt.foldl fun _ _ ht => ht.pauseQueue) hs.bumpCnt) (.ite
    (hs.bumpCnt.foldl fun _ _ ht => .ite ht.pauseQueue ht) hs.bumpCnt))

theorem Canonical.storeFrame {s : State} {p n off : Nat} {bs : List Byte} (hs : Canonical s) : Canonical (storeFrame s p n off bs) := by
  induction n generalizing s off bs with
  | zero => exact hs
  | succ n ih => exact ih (.ite hs.portTag.hwWrite hs.portTag)

theorem Canonical.storeOk {r : Nat} (hs : Canonical s) : Canonical (storeOk s p off n r).1 := hs.portTags

theorem Canonical.rxStore {r : RxFrame} {g skip : Nat} (hs : Canonical s) : Canonical (rxStore s p r f g skip) :=
  .ite hs.storeOk.storeFrame.bumpCnt hs.storeOk.storeFrame.appendRecord.countTile

theorem Canonical.rxGood {r : RxFrame} (hs : Canonical s) : Canonical (rxGood s p r) := by
  unfold Machine.rxGood
  refine .ite (.ite hs.countGood.rxPause hs.countGood.bumpCnt) ?_
  split
  · exact .ite hs.countGood (.ite hs.countGood.rxStore hs.countGood.bumpCnt)
  · exact hs.countGood.bumpCnt
  · exact hs.countGood

theorem Canonical.rxEnd {rxer : Bool} (hs : Canonical s) : Canonical (rxEnd s p rxer) := by
  unfold Machine.rxEnd
  split
  · exact hs
  · refine
      have ht := Canonical.ite hs.modPort.pairEnd hs.modPort
      .ite (.ite ht.modRg ht) (.ite (Canonical.ite ht.modRg ht).bumpCnt ?_)
    split
    · refine Canonical.bumpCnt ?_
      split
      · exact .ite (Canonical.ite ht.modRg ht).storeFrame (.ite ht.modRg ht)
      · exact .ite ht.modRg ht
    · exact (Canonical.ite ht.modRg ht).rxGood

theorem Canonical.rxJabber (hs : Canonical s) : Canonical (rxJabber s p) := by
  unfold Machine.rxJabber
  split
  · exact hs
  · exact .ite hs hs.modPort.modRg.bumpCnt

theorem Canonical.rxCut (hs : Canonical s) : Canonical (rxCut s p) := by
  unfold Machine.rxCut
  split
  · exact hs
  · exact .ite hs.modPort.pairEnd hs.modPort

theorem Canonical.rxFault {cls outcome : Nat} (hs : Canonical s) : Canonical (rxFault s p cls outcome) := by
  unfold Machine.rxFault
  split
  · exact hs
  · refine .ite hs ?_
    split
    · exact hs.modPort.gapInstead
    · exact hs.modPort

theorem Canonical.flowConsume {v : Word} (hs : Canonical s) : Canonical (flowConsume s p f v) := .ite hs.modRg hs.setFlow
theorem Canonical.rateEnd (hs : Canonical s) : Canonical (rateEnd s t) := hs.foldl fun _ _ ht => ht.modFlow

theorem Canonical.startOwn (hs : Canonical s) : Canonical (startOwn s p) := by
  unfold Machine.startOwn
  exact hs.modPort

theorem Canonical.refreshDue (hs : Canonical s) : Canonical (refreshDue s p) := by
  unfold Machine.refreshDue
  split
  · exact .ite hs.modPort hs
  · exact hs

theorem Canonical.granOk {e : TxEntry} (hs : Canonical s) : Canonical (granOk s p e).1 := hs.portTags

theorem Canonical.txStamp (hs : Canonical s) : Canonical (txStamp s p q) := by
  unfold Machine.txStamp
  dsimp only
  exact
    have ht := (Canonical.ite hs.eventTime.portTag.hwWrite hs.eventTime.portTag.countDeny).modPort
    .ite hs (.ite ht.raisePort ht)

theorem Canonical.popQ (hs : Canonical s) : Canonical (popQ s p q) := hs.modTxQ

theorem Canonical.startEntry {e : TxEntry} (hs : Canonical s) : Canonical (startEntry s p q e) :=
  have ht := (Canonical.ite hs.copyMasked hs).countTile.popQ.modPort
  .ite ht.txStamp ht

theorem Canonical.startNext {s : State} {n p : Nat} (hs : Canonical s) : Canonical (startNext n s p) := by
  induction n generalizing s with
  | zero => exact hs
  | succ n ih =>
    unfold Machine.startNext
    split
    · exact hs
    · exact .ite (ih hs.popQ.bumpCnt.retired) (.ite (ih hs.granOk.popQ.bumpCnt.retired)
        (.ite (ih hs.granOk.touchMem.popQ.bumpCnt.retired) hs.granOk.touchMem.startEntry))

theorem Canonical.txStart (hs : Canonical s) : Canonical (txStart s p) := .ite hs (.ite hs.startOwn hs.startNext)

theorem Canonical.txEnd (hs : Canonical s) : Canonical (txEnd s p) := by
  unfold Machine.txEnd
  split
  · exact hs.settleInto
  · split
    · exact hs.modPort.bumpCnt.bumpCnt.retired.countTile
    · exact hs.modPort.bumpCnt.bumpCnt.bumpCnt

theorem Canonical.txFault (hs : Canonical s) : Canonical (txFault s p) := by
  unfold Machine.txFault
  split
  · exact hs.modPort
  · split
    · exact hs.popQ.bumpCnt.retired
    · exact hs

theorem Canonical.pauseOver (hs : Canonical s) : Canonical (pauseOver s p q) := .ite hs hs.modTxQ

theorem Canonical.pauseWd (hs : Canonical s) : Canonical (pauseWd s p q) := by
  unfold Machine.pauseWd
  split
  · exact .ite hs.modTxQ.modRg.bumpCnt.raisePort hs
  · exact hs

theorem Canonical.linkFell (hs : Canonical s) : Canonical (linkFell s p) :=
  (hs.foldl fun _ _ ht => ht.modTxQ).modPort.rxCut.retireAll.egressLost

theorem Canonical.wakePairs (hs : Canonical s) : Canonical (wakePairs s t) := hs.foldl fun _ _ ht => .ite ht.modPair ht

theorem Canonical.evalLink (hs : Canonical s) : Canonical (evalLink s p) := by
  unfold Machine.evalLink
  split
  · exact .ite (.ite hs hs.modPort) hs.modPort.raisePort.wakePairs
  · exact .ite hs.modPort.linkFell.raisePort hs

theorem Canonical.phyUp {sp : BitVec 2} (hs : Canonical s) : Canonical (phyUp s p sp) := hs.modPort.evalLink

theorem Canonical.phyDown {cause : BitVec 2} (hs : Canonical s) : Canonical (phyDown s p cause) :=
  (Canonical.ite (Canonical.ite hs.modRg hs).modRg (.ite hs.modRg hs)).modPort.evalLink

theorem Canonical.resetPort (hs : Canonical s) : Canonical (resetPort s p) := .ite hs.modPort.linkFell.raisePort hs.modPort

theorem Canonical.portEnable (hs : Canonical s) : Canonical (portEnable s p) :=
  (hs.foldl fun _ _ ht => ht.setFlow).modPort.evalLink.wakePairs

theorem Canonical.portRead {d : Desc} {acc : Acc} (hs : Canonical s) : Canonical (portRead s d acc t o).1 :=
  .fst_ite hs (.fst_ite hs (.fst_ite hs (.fst_ite hs (.fst_ite hs (.fst_ite hs hs.plainRead)))))

theorem Canonical.ctlWrite {v : Word} (hs : Canonical s) : Canonical (ctlWrite s p v) :=
  (Canonical.ite hs.setRg.retireAll hs.setRg).evalLink

theorem Canonical.portWrite {d : Desc} {acc : Acc} {v : Word} {flit : Bool} (hs : Canonical s) :
    Canonical (portWrite s d acc t o v flit).1 := by
  unfold Machine.portWrite
  refine .fst_ite hs.ctlWrite.pair (.fst_ite hs.flowConsume.pair (.fst_ite hs.setHeldLo.pair (.fst_ite (Canonical.plainWrite ?_).pair
    (.fst_ite hs.setHeldLo.doPost (.fst_ite hs.plainWrite.pair hs)))))
  split
  · exact hs.plainWrite.setHeldLo
  · exact hs

/-! ### Pin sequencers -/

theorem Canonical.raiseSeq (hs : Canonical s) : Canonical (raiseSeq s n off lo) := hs.raiseField
theorem Canonical.seqErr {b : Nat} (hs : Canonical s) : Canonical (seqErr s n b) := .ite hs hs.modRg.raiseSeq

theorem Canonical.seqLevels (hs : Canonical s) : Canonical (seqLevels s n) := by
  unfold Machine.seqLevels
  exact hs.levelMsg.levelMsg.modSeq

theorem Canonical.pinWrite {pin : Nat} {v? oe? : Option Bool} (hs : Canonical s) : Canonical (pinWrite s t pin v? oe?) := hs.modTile

theorem Canonical.takeCompare (hs : Canonical s) : Canonical (takeCompare s n).1 := by
  unfold Machine.takeCompare
  dsimp only
  exact hs.modSeq

theorem Canonical.advance (hs : Canonical s) : Canonical (advance s n) := by
  unfold Machine.advance
  exact hs.modSeq

theorem Canonical.refill (hs : Canonical s) : Canonical (refill s n) := by
  unfold Machine.refill
  refine .ite hs.setSeq ?_
  split
  · exact hs.setSeq
  · exact (Canonical.ite hs hs.seqErr).modSeq

theorem Canonical.deposit (hs : Canonical s) : Canonical (deposit s n) :=
  .ite hs.refill (.ite hs.setSeq.refill (.ite (Canonical.ite hs hs.seqErr).refill (Canonical.ite hs hs.seqErr).modSeq))

theorem Canonical.wordBoundary (hs : Canonical s) : Canonical (wordBoundary s n) :=
  .ite (Canonical.ite hs.takeCompare.raiseSeq hs.takeCompare).deposit hs.deposit

theorem Canonical.retryHold (hs : Canonical s) : Canonical (retryHold s n) := by
  unfold Machine.retryHold
  split
  · exact hs
  · exact hs.deposit
  · exact hs.refill

theorem Canonical.finishShift (hs : Canonical s) : Canonical (finishShift s n) := by
  unfold Machine.finishShift
  split
  · exact hs
  · exact
      have ht := Canonical.ite (Canonical.snd_ite hs hs.freshOf).setSeq.takeCompare (Canonical.snd_ite hs hs.freshOf).setSeq
      have hu := Canonical.ite (.ite ht.takeCompare.advance ht.takeCompare) ht
      .ite hu.wordBoundary hu

theorem Canonical.driveOut (hs : Canonical s) : Canonical (driveOut s n) := .ite hs (hs.foldl fun _ _ ht => ht.pinWrite)

theorem Canonical.setPins {parm : Nat} {enable : Bool} (hs : Canonical s) : Canonical (setPins s n parm enable) :=
  hs.foldl fun _ _ ht => .ite ht.pinWrite ht.pinWrite

theorem Canonical.wordAct {w : Word} {first : Bool} (hs : Canonical s) : Canonical (wordAct s n w first) := by
  unfold Machine.wordAct
  split
  · exact (Canonical.ite hs.driveOut hs).modSeq
  · split
    · exact .ite hs.setPins hs
    · exact .ite hs.setPins hs
    · exact .ite hs.modSeq hs
    · exact .ite hs.modSeq hs
    · exact .ite hs.takeCompare.raiseSeq hs.takeCompare
    · exact .ite hs.raiseSeq hs
    · exact hs

theorem Canonical.zeroTicks {s : State} {k n : Nat} (hs : Canonical s) : Canonical (zeroTicks k s n) := by
  induction k generalizing s with
  | zero => exact hs
  | succ k ih => exact .ite (ih hs.wordAct.advance) hs

theorem Canonical.oneTick (hs : Canonical s) : Canonical (oneTick s n) :=
  have ht := hs.wordAct.modSeq.takeCompare
  .ite hs (.ite (.ite ht.advance ht) (.ite hs.wordAct.modSeq.advance hs.wordAct.modSeq))

theorem Canonical.seqBoundary {pins : BitVec 64} (hs : Canonical s) : Canonical (seqBoundary s n pins) :=
  have ht := hs.modSeq.modTile.finishShift.retryHold
  .ite hs (Canonical.ite ht.zeroTicks.oneTick ht).modSeq.seqLevels

theorem Canonical.startSeq (hs : Canonical s) : Canonical (startSeq s n) :=
  .ite hs (.ite (hs.modSeq.foldl fun _ _ ht => ht.pinWrite) hs.modSeq)

theorem Canonical.stopSeq (hs : Canonical s) : Canonical (stopSeq s n) := hs.modSeq
theorem Canonical.runSeq (hs : Canonical s) : Canonical (runSeq s n) := .ite hs.startSeq hs
theorem Canonical.seqSlim (hs : Canonical s) : Canonical (seqSlim s n) := .ite hs.seqErr.stopSeq hs
theorem Canonical.seqFault (hs : Canonical s) : Canonical (seqFault s n) := hs.stopSeq.seqErr

theorem Canonical.seqRelease (hs : Canonical s) : Canonical (seqRelease s f) :=
  hs.foldl fun _ _ ht => ht.foldl fun _ _ hu => .ite hu hu.pinWrite

theorem Canonical.seqPush {v : Word} (hs : Canonical s) : Canonical (seqPush s n v).1 := .fst_ite hs.modSeq.seqLevels hs

theorem Canonical.seqPop (hs : Canonical s) : Canonical (seqPop s n).1 := by
  unfold Machine.seqPop
  split
  · exact hs.modSeq.seqLevels.pair
  · exact hs

theorem Canonical.txfWrite {v : Word} (hs : Canonical s) : Canonical (txfWrite s n v) := .ite hs.seqPush hs.seqErr

theorem Canonical.rxfRead {acc : Acc} (hs : Canonical s) : Canonical (rxfRead s acc n).1 := by
  unfold Machine.rxfRead
  refine .fst_ite hs ?_
  split
  · next he => exact hs.seqPop.of_fst he
  · exact hs.seqErr.pair

theorem Canonical.seqCtl {v : Word} (hs : Canonical s) : Canonical (seqCtl s n v) :=
  have ht := Canonical.ite (Canonical.ite hs.modSeq hs).modSeq (.ite hs.modSeq hs)
  (Canonical.ite ht.runSeq ht.stopSeq).seqLevels

theorem Canonical.seqRead {d : Desc} {acc : Acc} (hs : Canonical s) : Canonical (seqRead s d acc t o).1 := by
  unfold Machine.seqRead
  refine .fst_ite hs (.fst_ite hs ?_)
  split
  · exact hs
  · exact hs
  · exact hs
  · exact hs.rxfRead
  · exact hs
  · exact hs.plainRead

theorem Canonical.seqProgWrite {d : Desc} {acc : Acc} {r : Nat} {v : Word} (hs : Canonical s) :
    Canonical (seqProgWrite s d acc n r v) := by
  unfold Machine.seqProgWrite
  refine .ite hs (.ite hs.seqErr (.ite (.ite hs.seqErr hs.plainWrite) (.ite hs.setHeldLo (.ite (Canonical.setRg ?_)
    (.ite hs.plainWrite hs.seqErr)))))
  split
  · exact hs.setRg.setHeldLo
  · exact hs

theorem Canonical.seqWrite {d : Desc} {acc : Acc} {v : Word} (hs : Canonical s) : Canonical (seqWrite s d acc t o v).1 :=
  .fst_ite hs.seqCtl (.fst_ite hs.txfWrite (.fst_ite hs (.fst_ite hs.seqProgWrite (.fst_ite hs.plainWrite hs))))

/-! ### Timer channels -/

theorem Canonical.raiseTmr (hs : Canonical s) : Canonical (raiseTmr s n lo) := hs.raiseField
theorem Canonical.tmrErr {b : Nat} (hs : Canonical s) : Canonical (tmrErr s n b) := .ite hs hs.modRg.raiseTmr

theorem Canonical.tmrMatch (hs : Canonical s) : Canonical (tmrMatch s n) :=
  have ht := hs.modRg.raiseTmr.setTmr.modRg
  .ite hs.modRg.raiseTmr.setTmr (.ite ht ht.tmrErr)

theorem Canonical.tmrArm {imm : Bool} (hs : Canonical s) : Canonical (tmrArm s n imm) :=
  .ite hs.modTmr.tmrMatch (.ite hs.modTmr.tmrErr hs.modTmr)

theorem Canonical.cmpWrite {v : Word} {imm : Bool} (hs : Canonical s) : Canonical (cmpWrite s n v imm) := .ite hs.setRg.tmrArm hs.setRg
theorem Canonical.cmpDue (hs : Canonical s) : Canonical (cmpDue s n) := .ite hs.tmrMatch hs

theorem Canonical.tmrEnable {old : Word} (hs : Canonical s) : Canonical (tmrEnable s n old) :=
  .ite hs.modTmr.modTmr (.ite hs.modTmr.tmrArm (.ite hs.modTmr.tmrArm hs.modTmr))

theorem Canonical.capReplace {capr capf : DWord} (hs : Canonical s) : Canonical (capReplace s n capr capf) :=
  .ite hs.setTmr.raiseTmr.raiseTmr hs.setTmr.raiseTmr

theorem Canonical.capTime (hs : Canonical s) : Canonical (capTime s n).1 := by
  unfold Machine.capTime
  dsimp only
  exact hs.eventTime

theorem Canonical.capEdge {rising : Bool} (hs : Canonical s) : Canonical (capEdge s n rising) := by
  unfold Machine.capEdge
  dsimp only
  refine .ite hs ?_
  split
  · refine .ite hs.capTime.setTmr ?_
    split
    · exact hs.capTime.setTmr.capReplace
    · exact hs.capTime
  · exact .ite (.ite hs.capTime.setTmr.capReplace hs.capTime.setTmr) hs.capTime
  · exact hs.capTime

theorem Canonical.capSnap {acc : Acc} (hs : Canonical s) : Canonical (capSnap s acc n).1 := .ite hs.setTmr hs
theorem Canonical.blankStart (hs : Canonical s) : Canonical (blankStart s n) := hs.modTmr
theorem Canonical.blankEnd (hs : Canonical s) : Canonical (blankEnd s n) := .ite hs hs.modTmr
theorem Canonical.tmrUnload (hs : Canonical s) : Canonical (tmrUnload s n) := hs.setTmr.setRg

theorem Canonical.tmrRead {d : Desc} {acc : Acc} (hs : Canonical s) : Canonical (tmrRead s d acc t o).1 := by
  unfold Machine.tmrRead
  split
  · exact hs
  · exact hs
  · exact hs
  · exact hs
  · exact hs.capSnap
  · exact hs
  · exact hs
  · exact hs
  · exact hs
  · exact hs
  · exact hs.plainRead

theorem Canonical.tmrWrite {d : Desc} {v : Word} (hs : Canonical s) : Canonical (tmrWrite s d t o v).1 := by
  unfold Machine.tmrWrite
  split
  · exact .fst_ite hs.plainWrite.pair hs
  · exact .fst_ite hs.plainWrite.pair hs
  · exact hs.cmpWrite.pair
  · exact hs.cmpWrite.pair
  · exact hs.plainWrite.pair

/-! ### PWM pairs -/

theorem Canonical.raisePwm (hs : Canonical s) : Canonical (raisePwm s p off lo) := hs.raiseField
theorem Canonical.pwmErr {b : Nat} (hs : Canonical s) : Canonical (pwmErr s p b) := .ite hs hs.modRg.raisePwm
theorem Canonical.refChange {r : Bool} (hs : Canonical s) : Canonical (refChange s p r) := .ite hs (.ite hs.setPwm.raisePwm hs.setPwm)

theorem Canonical.pwmZero (hs : Canonical s) : Canonical (pwmZero s p) :=
  have ht := (Canonical.ite hs.setPwm.pwmErr hs.setPwm).refChange.modPwm
  .ite hs (.ite ht.raisePwm ht)

theorem Canonical.pwmTop (hs : Canonical s) : Canonical (pwmTop s p) := .ite hs (.ite hs.setPwm.refChange.raisePwm hs.setPwm.refChange)
theorem Canonical.pwmRef (hs : Canonical s) : Canonical (pwmRef s p) := .ite hs hs.setPwm.refChange

theorem Canonical.pwmTurnOn {dt : Nat} (hs : Canonical s) : Canonical (pwmTurnOn s p dt) := by
  unfold Machine.pwmTurnOn
  dsimp only
  split
  · exact hs
  · exact .ite hs.setPwm.modRg.pwmErr hs.setPwm.modRg

theorem Canonical.pwmTrip {fault : Bool} (hs : Canonical s) : Canonical (pwmTrip s p fault) := by
  unfold Machine.pwmTrip
  refine .ite hs (Canonical.raisePwm ?_)
  split
  · exact hs.setPwm.blankStart
  · exact hs.setPwm

theorem Canonical.tripInput {active : Bool} (hs : Canonical s) : Canonical (tripInput s p active) := .ite hs.modPwm.pwmTrip hs.modPwm
theorem Canonical.tripClear (hs : Canonical s) : Canonical (tripClear s p) := .ite hs.pwmErr (.ite hs.setPwm hs)
theorem Canonical.pwmStart (hs : Canonical s) : Canonical (pwmStart s p) := .ite hs hs.setPwm
theorem Canonical.pwmRun (hs : Canonical s) : Canonical (pwmRun s p) := .ite hs.pwmStart hs
theorem Canonical.pwmStop (hs : Canonical s) : Canonical (pwmStop s p) := hs.modPwm

theorem Canonical.pwmCtl {v : Word} (hs : Canonical s) : Canonical (pwmCtl s p v) :=
  have ht := Canonical.ite (Canonical.ite hs.modPwm hs).tripClear (.ite hs.modPwm hs)
  .ite (Canonical.ite ht.pwmTrip ht).pwmRun (Canonical.ite ht.pwmTrip ht).pwmStop

theorem Canonical.perWrite {v : Word} (hs : Canonical s) : Canonical (perWrite s p v) := .ite hs.pwmErr hs.setRg.modPwm

theorem Canonical.pwmRead {d : Desc} {acc : Acc} (hs : Canonical s) : Canonical (pwmRead s d acc t o).1 := by
  unfold Machine.pwmRead
  split
  · exact hs
  · exact hs
  · exact .fst_ite hs hs.freshOf.pair
  · exact hs
  · exact hs.plainRead

theorem Canonical.pwmWrite {d : Desc} {v : Word} (hs : Canonical s) : Canonical (pwmWrite s d t o v).1 := by
  unfold Machine.pwmWrite
  split
  · exact hs.perWrite.pair
  · exact hs.plainWrite.modPwm.pair
  · exact hs.pwmCtl.pair
  · exact .fst_ite hs.plainWrite.pair hs

/-! ### The Datum and the pace monitor -/

theorem Canonical.tickTile (hs : Canonical s) : Canonical (tickTile s t) := hs.modTile

theorem Canonical.enterHold {b : Nat} (hs : Canonical s) : Canonical (enterHold s t b) :=
  (Canonical.ite hs.modRg hs.modRg.raiseEdge).writeFault

theorem Canonical.leaveHold (hs : Canonical s) : Canonical (leaveHold s t) := .ite hs.modRg.raiseEdge hs

theorem Canonical.dadjWrite {v : Word} (hs : Canonical s) : Canonical (dadjWrite s v) :=
  .ite hs.setRg.modRg (.ite hs.setRg.modRg hs.setRg)

theorem Canonical.paceQuad (hs : Canonical s) : Canonical (paceQuad s t q n) :=
  have ht := hs.modRg.modRg.modTile.modRg.raiseEdge
  .ite hs (.ite hs.modTile (.ite (.ite ht.writeFault ht) (.ite hs.modRg.modRg.modTile.modRg hs.modRg.modRg.modTile)))

theorem Canonical.paceEnd {c : List Nat} (hs : Canonical s) : Canonical (paceEnd s t c) := hs.foldl fun _ _ ht => ht.paceQuad

theorem Canonical.paceCtl {v : Word} (hs : Canonical s) : Canonical (paceCtl s t v) :=
  .ite hs.modRg (.ite (hs.setRg.foldl fun _ _ ht => ht.modRg) hs.setRg)

theorem Canonical.datRead {d : Desc} {acc : Acc} (hs : Canonical s) : Canonical (datRead s d acc t o).1 := by
  unfold Machine.datRead
  split
  · exact hs
  · exact hs
  · exact hs
  · exact hs
  · exact hs
  · exact .fst_ite hs hs.plainRead

theorem Canonical.datWrite {d : Desc} {v : Word} (hs : Canonical s) : Canonical (datWrite s d t o v).1 := by
  unfold Machine.datWrite
  split
  · exact hs.dadjWrite.pair
  · exact hs.paceCtl.pair
  · exact hs.plainWrite.pair

/-! ### Cluster reset and reference -/

theorem Canonical.clusterReset {s : State} (hs : Canonical s) : Canonical (clusterReset s) :=
  { canonicalFormAtReset with flash := hs.flash }

/-! ### Halts, freezes and comparators -/

theorem Canonical.wdRestart (hs : Canonical s) : Canonical (wdRestart s p) := hs.rest
theorem Canonical.wdSync (hs : Canonical s) : Canonical (wdSync s) := hs.foldl fun _ _ ht => .ite ht (.ite ht.rest.wdRestart ht.rest)
theorem Canonical.wdRelease (hs : Canonical s) : Canonical (wdRelease s p) := .ite hs hs.modRg.wdSync
theorem Canonical.drainRestart (hs : Canonical s) : Canonical (drainRestart s f) := hs.modFn

theorem Canonical.freezeSync (hs : Canonical s) : Canonical (freezeSync s t) :=
  hs.foldl fun _ _ ht => .ite (.ite ht ht.stopSeq.modSeq) (.ite ht.modSeq.runSeq ht)

theorem Canonical.haltStat {h : HaltCause} (hs : Canonical s) : Canonical (haltStat s c h) := hs.modRg
theorem Canonical.haltNow {h : HaltCause} (hs : Canonical s) : Canonical (haltNow s c h) := hs.modCtx.haltStat.freezeSync.wdSync

theorem Canonical.askHalt {h : HaltCause} (hs : Canonical s) : Canonical (askHalt s c h) := by
  unfold Machine.askHalt
  dsimp only
  split
  · exact hs.modRg
  · exact hs.modRg
  · exact hs.modRg
  · exact hs.haltNow
  · exact hs.haltNow
  · exact hs.modCtx

theorem Canonical.haltAll {h : HaltCause} (hs : Canonical s) : Canonical (haltAll s t p h) := by
  unfold Machine.haltAll
  refine hs.foldl fun _ _ ht => ?_
  split
  · exact ht
  · exact ht
  · exact ht
  · exact ht.askHalt

theorem Canonical.sendNotices (hs : Canonical s) : Canonical (sendNotices s t p) := hs.foldl fun _ _ ht => ht.sendFlit

theorem Canonical.haltEffect (hs : Canonical s) : Canonical (haltEffect s c) :=
  .ite hs (Canonical.ite (.ite hs.haltNow.haltAll.sendNotices hs.haltNow.haltAll) hs.haltNow).reschedOf

theorem Canonical.resumeCtx (hs : Canonical s) : Canonical (resumeCtx s c) := by
  unfold Machine.resumeCtx
  refine (Canonical.nextFrame ?_).reschedOf
  split
  · exact hs.modCtx.wdRelease.freezeSync.drainRestart
  · exact hs.modCtx.wdRelease.freezeSync

theorem Canonical.stepCtx {ev : Bool} (hs : Canonical s) : Canonical (stepCtx s c ev) := by
  unfold Machine.stepCtx
  refine .ite hs.modCtx.reschedOf (.ite hs.haltStat (Canonical.ite hs.modCtx.nextFrame ?_).haltNow)
  split
  · exact hs.modCtx.nextFrame.deliver.activate
  · exact hs.modCtx.nextFrame

theorem Canonical.ctxOp {op : Nat} {ev : Bool} (hs : Canonical s) : Canonical (ctxOp s c op ev) := by
  unfold Machine.ctxOp
  split
  · exact hs.askHalt
  · exact .ite hs.resumeCtx hs.modRg
  · exact .ite hs.stepCtx hs.modRg
  · exact hs

theorem Canonical.ctxCtl {v : Word} (hs : Canonical s) : Canonical (ctxCtl s t v).1 := by
  unfold Machine.ctxCtl
  split
  · exact hs
  · exact .fst_ite (hs.foldl fun _ _ ht => ht.ctxOp).pair (.fst_ite hs hs.ctxOp.pair)

theorem Canonical.releaseDbg {s : State} {t p : Nat} (hs : Canonical s) : Canonical (releaseDbg s t p) :=
  (hs.foldl fun _ _ ht => .ite ht.resumeCtx ht.modCtx).dropRegs.modRg.setRg.setRg.freezeSync

theorem Canonical.bwOne {c n : Nat} {w : Watch} {r : State × List (Nat × Nat)} (hr : Canonical r.1) : Canonical (bwOne c w r n).1 :=
  .fst_ite hr (.fst_ite hr.modRg.countCtx.modRg.pair (.ite hr.modRg.countCtx.modRg hr.modRg.countCtx))

theorem Canonical.bwTake {w : Watch} (hs : Canonical s) : Canonical (bwTake s c w).1 :=
  .fst_ite hs (.fst_foldl hs (fun _ _ ht => ht.bwOne))

theorem Canonical.bwAct {acts : List (Nat × Nat)} (hs : Canonical s) : Canonical (bwAct s c acts).1 := by
  unfold Machine.bwAct
  split
  · exact hs.askHalt
  · exact hs

theorem Canonical.dbgRead {d : Desc} {acc : Acc} (hs : Canonical s) : Canonical (dbgRead s d acc t o).1 :=
  .fst_ite hs (.fst_ite hs (.fst_ite hs hs.plainRead))

theorem Canonical.bwWrite {d : Desc} {v : Word} (hs : Canonical s) : Canonical (bwWrite s d t o v).1 := by
  unfold Machine.bwWrite
  refine .fst_ite hs.modRg.pair (.fst_ite hs.modRg.pair (Canonical.pair ?_))
  split
  · exact hs.plainWrite.modRg
  · exact hs.plainWrite

theorem Canonical.dbgWrite {d : Desc} {v : Word} (hs : Canonical s) : Canonical (dbgWrite s d t o v).1 :=
  .fst_ite hs.ctxCtl (.fst_ite hs (.fst_ite hs.modRg.freezeSync (.fst_ite hs.bwWrite hs.plainWrite)))

/-! ### Performance counters and samplers -/

theorem Canonical.pmcReown {o : Option (BitVec 4)} (hs : Canonical s) : Canonical (pmcReown s t i o) := hs.setPmc.setRg.setRg
theorem Canonical.smpReown {o : Option (BitVec 4)} (hs : Canonical s) : Canonical (smpReown s t e o) := hs.setSmp.setRg.setRg

theorem Canonical.pmcClaim {acc : Acc} (hs : Canonical s) : Canonical (pmcClaim s acc t i).1 := by
  unfold Machine.pmcClaim
  split
  · exact hs
  · exact (Canonical.ite hs.pmcReown hs).pair

theorem Canonical.smpClaim {acc : Acc} (hs : Canonical s) : Canonical (smpClaim s acc t e).1 := by
  unfold Machine.smpClaim
  split
  · exact hs
  · exact (Canonical.ite hs.smpReown hs).pair

theorem Canonical.snapshot (hs : Canonical s) : Canonical (snapshot s t p) := (hs.foldl fun _ _ ht => .ite ht.modPmc ht).modRg.setRg

theorem Canonical.snapCtl {v : Word} (hs : Canonical s) : Canonical (snapCtl s t p v) :=
  .ite (Canonical.ite hs.modRg.modRg hs.modRg).snapshot.modRg (.ite hs.modRg.modRg hs.modRg)

theorem Canonical.snapDue (hs : Canonical s) : Canonical (snapDue s t p) := .ite hs.snapshot hs

theorem Canonical.cntWrite {acc : Acc} {v : Word} (hs : Canonical s) : Canonical (cntWrite s acc t i v) := by
  unfold Machine.cntWrite
  exact hs.setHeldLo.modPmc

theorem Canonical.smpDone (hs : Canonical s) : Canonical (smpDone s t e n) := hs.modSmp

theorem Canonical.pmcRead {d : Desc} {acc : Acc} (hs : Canonical s) : Canonical (pmcRead s d acc t o).1 := by
  unfold Machine.pmcRead
  refine .fst_ite ?_ (.fst_ite hs.plainRead (.fst_ite ?_ hs))
  · split
    · exact hs.pmcClaim
    · exact hs
    · exact hs
    · exact hs
    · exact hs
    · exact hs.plainRead
  · split
    · exact hs.smpClaim
    · exact hs
    · exact hs.plainRead

theorem Canonical.pmcWrite {d : Desc} {acc : Acc} {v : Word} (hs : Canonical s) : Canonical (pmcWrite s d acc t o v).1 := by
  unfold Machine.pmcWrite
  refine .fst_ite hs (.fst_ite ?_ (.fst_ite ?_ ?_))
  · split
    · exact (Canonical.ite hs.pmcReown hs).pair
    · exact .fst_ite hs.plainWrite.pair hs
    · exact hs.setHeldLo.pair
    · exact hs.cntWrite.pair
    · exact hs
    · exact hs
    · exact hs.plainWrite.pair
  · split
    · exact hs.snapCtl.pair
    · exact hs.setHeldLo.pair
    · exact hs
    · refine (Canonical.setRg ?_).pair
      split
      · exact hs.setRg.setHeldLo
      · exact hs
  · split
    · exact (Canonical.ite hs.smpReown hs).pair
    · exact .fst_ite hs.plainWrite.pair hs
    · exact hs.smpDone.modSmp.pair
    · exact hs.plainWrite.pair

/-! ### Code memory, writable stores and their mirror -/

theorem Canonical.writeBlock {s : State} {t b : Nat} {v : BitVec 512} (hs : Canonical s) : Canonical (writeBlock s t b v) :=
  .ite hs.writeCode (.ite (hs.foldl fun _ _ ht => .ite ht.modUWord ht) (hs.foldl fun _ _ ht => ht.modDec))

theorem Canonical.takeHalf {key : Nat} {fl : Flit} (hs : Canonical s) : Canonical (takeHalf s t key fl).1 := by
  unfold Machine.takeHalf
  refine .fst_ite hs.setTile.pair ?_
  split
  · exact hs.setTile.pair
  · exact hs

theorem Canonical.takeMirwr {fl : Flit} (hs : Canonical s) : Canonical (takeMirwr s t fl) := by
  unfold Machine.takeMirwr
  refine .ite hs ?_
  split
  · next he => exact (hs.takeHalf.of_fst he).setMirror.markGood
  · next he => exact hs.takeHalf.of_fst he

theorem Canonical.mirrorPut {b : Nat} (hs : Canonical s) : Canonical (mirrorPut s t b) :=
  hs.foldl fun _ _ ht => ht.carryFlit fun _ _ hu => hu.takeMirwr

theorem Canonical.ctxWritten (hs : Canonical s) : Canonical (ctxWritten s c) := hs.foldl fun _ _ ht => ht.markGood
theorem Canonical.askPartner {key : Nat} (hs : Canonical s) : Canonical (askPartner s t key) := .ite hs hs.modTile.sendFlit

/-! ### Tile keys -/

theorem Canonical.takeKey {fl : Flit} (hs : Canonical s) : Canonical (takeKey s t fl) := by
  unfold Machine.takeKey
  refine .ite hs (.ite hs.setTile ?_)
  split
  · exact hs.setTile
  · exact hs

theorem Canonical.keyTaken {fl : Flit} (hs : Canonical s) : Canonical (keyTaken s t fl) := hs.takeKey.foldl fun _ _ ht => ht.drainLink

theorem Canonical.deliverKey (hs : Canonical s) : Canonical (deliverKey s t) := by
  unfold Machine.deliverKey
  split
  · exact hs
  · exact hs.foldl fun _ _ ht => ht.carryFlit fun _ _ hu => hu.keyTaken

theorem Canonical.deliverKeys (hs : Canonical s) : Canonical (deliverKeys s) := hs.foldl fun _ _ ht => ht.deliverKey

theorem Canonical.carryAuth {s : State} {k : BitVec 384} {fl : Flit} {eff : State → State} (hs : Canonical s)
    (heff : ∀ u, Canonical u → Canonical (eff u)) : Canonical (carryAuth s k fl eff) :=
  hs.foldl fun _ _ ht => ht.carryFlit fun _ _ hu => .ite hu (heff _ hu)

theorem Canonical.grantTile (hs : Canonical s) : Canonical (grantTile s t) := by
  unfold Machine.grantTile
  split
  · exact hs
  · exact
      have ht := hs.foldl fun _ _ ht => .ite ht (ht.carryAuth fun _ hu => hu.setRg)
      .ite ht (ht.carryAuth fun _ hu => hu.modTile)

/-! ### Power domains -/

theorem Canonical.pwrRes {res : Nat} (hs : Canonical s) : Canonical (pwrRes s t res) := hs.modRg

theorem Canonical.linkBoth {st : LinkState} (hs : Canonical s) : Canonical (linkBoth s t st) :=
  hs.foldl fun _ _ ht => .ite (.ite ht.modLink ht.modLink.raiseEdge) (.ite (Canonical.ite ht.modLink
    ht.modLink.raiseEdge).setLinkState.reroute (Canonical.ite ht.modLink ht.modLink.raiseEdge).setLinkState)

theorem Canonical.sleepPort (hs : Canonical s) : Canonical (sleepPort s p) := by
  unfold Machine.sleepPort
  exact (hs.foldl fun _ _ ht => ht.modTxQ.foldl fun _ _ hu => hu.retired).wakeChunk.modPort.modPair

theorem Canonical.isolate {d : Nat} (hs : Canonical s) : Canonical (isolate s t d) :=
  .ite ((hs.modTile.foldl fun _ _ ht => .ite ht ht.modUWord).foldl fun _ _ ht => ht.modDec) (.ite
    (hs.modTile.foldl fun _ _ ht => ht.sleepPort) (.ite hs.modTile.modTile (.ite hs.modTile.linkBoth hs.modTile)))

theorem Canonical.powerDownCmd {dom tile : Nat} (hs : Canonical s) : Canonical (powerDownCmd s t dom tile) := by
  unfold Machine.powerDownCmd
  split
  · exact hs.pwrRes
  · exact .ite hs.pwrRes (hs.setTile.foldl fun _ _ ht => ht.isolate)

theorem Canonical.requestUp {dom : Nat} (hs : Canonical s) : Canonical (requestUp s t dom) := hs.modTile
theorem Canonical.reloadQuad (hs : Canonical s) : Canonical (reloadQuad s t q) := hs.modTile.foldl fun _ _ ht => ht.askPartner

theorem Canonical.powerUpCmd {dom tile : Nat} (hs : Canonical s) : Canonical (powerUpCmd s t dom tile) :=
  .ite hs.pwrRes (.ite (.ite hs.modTile.pwrRes hs.pwrRes) (.ite hs.pwrRes (.ite hs.requestUp.reloadQuad hs.requestUp)))

theorem Canonical.pwrCmd {v : Word} (hs : Canonical s) : Canonical (pwrCmd s t v) := .ite hs (.ite hs.powerUpCmd hs.powerDownCmd)
theorem Canonical.remoteWake (hs : Canonical s) : Canonical (remoteWake s t) := .ite hs.modTile.requestBuf hs

theorem Canonical.bumpGen {d : Nat} (hs : Canonical s) : Canonical (bumpGen s t d) := by
  unfold Machine.bumpGen
  split
  · exact hs.modRg
  · exact hs

theorem Canonical.latchAsk (hs : Canonical s) : Canonical (latchAsk s t) := .ite hs.requestBuf hs
theorem Canonical.endCmd {res : Nat} (hs : Canonical s) : Canonical (endCmd s t res) := hs.modTile.pwrRes.latchAsk

theorem Canonical.powerAck {d : Nat} {level : Bool} (hs : Canonical s) : Canonical (powerAck s t d level) :=
  have ht := hs.setTile.bumpGen
  .ite hs (.ite (.ite ht.linkBoth (.ite ht.reloadQuad ht)) (.ite (.ite hs.setTile.endCmd hs.setTile) hs.setTile))

theorem Canonical.ackTimeout {d : Nat} (hs : Canonical s) : Canonical (ackTimeout s t d) := .ite hs hs.endCmd.modRg.writeFault

theorem Canonical.wakeQuad (hs : Canonical s) : Canonical (wakeQuad s t q) := by
  unfold Machine.wakeQuad
  exact (hs.foldl fun _ _ ht => ht.setEng).modTile.modRg

theorem Canonical.wakePort {s : State} {p : Nat} (hs : Canonical s) : Canonical (wakePort s p) :=
  (hs.foldl fun _ _ ht => ht.setFlow.setTxQ).setPort.dropRegs

theorem Canonical.wakeSeq (hs : Canonical s) : Canonical (wakeSeq s n) := hs.setSeq.setRg.seqLevels

theorem Canonical.takeLatches {s : State} {t : Nat} (hs : Canonical s) : Canonical (takeLatches s t) :=
  { hs with srcs := swf_filter_map _ _ (fun e => by dsimp only; split <;> rfl) hs.srcs }

/-- The tables and memories of a tile that a sleep of BUF loses. -/
theorem Canonical.dropTile {s : State} {mem code codeTag mirror ctxs mbxs pmcs smps regs staged : Nat → Bool} {badBlk : List Nat}
    (hs : Canonical s) : Canonical { s with
      mem := s.mem.filter fun e => mem e.1, code := s.code.filter fun e => code e.1, codeTag := dropKeys codeTag s.codeTag
      mirror := dropKeys mirror s.mirror, badBlk := badBlk, ctxs := dropKeys ctxs s.ctxs, mbxs := dropKeys mbxs s.mbxs
      pmcs := dropKeys pmcs s.pmcs, smps := dropKeys smps s.smps
      regs := s.regs.filter fun e => regs e.1, staged := s.staged.filter fun e => staged e.1 } :=
  { hs with
    mem := swf_filter _ _ _ hs.mem, code := swf_filter _ _ _ hs.code, codeTag := swf_filter _ _ _ hs.codeTag
    mirror := swf_filter _ _ _ hs.mirror, ctxs := swf_filter _ _ _ hs.ctxs, mbxs := swf_filter _ _ _ hs.mbxs
    pmcs := swf_filter _ _ _ hs.pmcs, smps := swf_filter _ _ _ hs.smps, regs := rwf_filter _ hs.regs, staged := rwf_filter _ hs.staged }

theorem Canonical.wakeBuf {s : State} {t : Nat} (hs : Canonical s) : Canonical (wakeBuf s t) := by
  have hslept := (hs.dropTile (mem := fun a => a / 0x1000000 != t) (code := fun a => a / 0x1000000 != t) (codeTag := fun k => k / 16384 == t)
    (mirror := fun k => k / 32768 == t || k / 32768 == partner t) (ctxs := fun k => k / 256 == t) (mbxs := fun k => k / 32 == t)
    (pmcs := fun k => k / 144 == t) (smps := fun k => k / 16 == t) (regs := keptAsleep t) (staged := keptAsleep t)
    (badBlk := s.badBlk.filter fun k => k / 2 ^ 20 != t))
  unfold Machine.wakeBuf
  exact ((hslept.setTile.foldl fun _ _ hu => .ite hu hu.modTile).deliverKey.grantTile.foldl fun _ _ hu => hu.mirrorPut).takeLatches

theorem Canonical.wakeDone {d : Nat} {ok : Bool} (hs : Canonical s) : Canonical (wakeDone s t d ok) :=
  have ht := (Canonical.ite (hs.foldl fun _ _ ht => ht.wakePort) (.ite (hs.foldl fun _ _ ht => ht.wakeSeq) hs)).modTile
  have hu := Canonical.ite (ht.foldl fun _ _ hu => hu.evalLink) ht
  .ite hs (.ite (.ite hs (.ite (.ite hs.modTile.wakeQuad.endCmd hs.modTile.wakeQuad) (Canonical.ite hs.endCmd hs.pwrRes).writeFault))
    (.ite (.ite hs (.ite hs.wakeBuf.endCmd hs.wakeBuf)) (.ite hs (.ite hu.endCmd hu))))

theorem Canonical.pwrWrite {d : Desc} {v : Word} (hs : Canonical s) : Canonical (pwrWrite s d t o v).1 :=
  .fst_ite hs.pwrCmd hs.plainWrite

/-! ### The security unit -/

theorem Canonical.modSec {g : Sec → Sec} (hs : Canonical s) : Canonical (modSec s g) := hs.rest

theorem Canonical.extend {e : List Byte} (hs : Canonical s) : Canonical (extend s k e) := by
  unfold Machine.extend
  exact hs.modSec.modRg

theorem Canonical.measure {typ parcel fn epoch : Nat} {digest : List Byte} {ps : List Nat} (hs : Canonical s) :
    Canonical (measure s typ parcel fn epoch digest ps) :=
  hs.extend.foldl fun _ _ ht => ht.extend

theorem Canonical.tellTiles {kind hi : Nat} {aux : Word} (hs : Canonical s) : Canonical (tellTiles s kind hi aux) := by
  unfold Machine.tellTiles
  refine hs.foldl fun _ _ ht => ?_
  split
  · exact ht.foldl fun _ _ hu => hu.sendFlit
  · exact ht

theorem Canonical.grantWrite {v : Word} (hs : Canonical s) : Canonical (grantWrite s p v) := hs.setRg.tellTiles
theorem Canonical.endUnlock (hs : Canonical s) : Canonical (endUnlock s) := .ite hs hs.modSec.releaseDbg.modRg.wdSync.wdRestart.tellTiles
theorem Canonical.chalRequest (hs : Canonical s) : Canonical (chalRequest s) := .ite hs hs.modSec
theorem Canonical.chalReady (hs : Canonical s) : Canonical (chalReady s) := .ite hs hs.freshOf.modSec

theorem Canonical.chalExpired (hs : Canonical s) : Canonical (chalExpired s) := by
  unfold Machine.chalExpired
  split
  · exact .ite hs.modSec hs
  · exact hs

theorem Canonical.msgWrite {v : Word} (hs : Canonical s) : Canonical (msgWrite s i v) := .ite hs (.ite hs.modSec.modSec hs.modSec)

theorem Canonical.unlockVerified (hs : Canonical s) : Canonical (unlockVerified s) :=
  .ite hs (.ite hs.modSec (Canonical.ite hs.endUnlock hs).modSec.tellTiles.measure)

theorem Canonical.lifeExpired (hs : Canonical s) : Canonical (lifeExpired s) := .ite hs.endUnlock hs
theorem Canonical.waitElapsed (hs : Canonical s) : Canonical (waitElapsed s) := .ite hs.modSec hs

theorem Canonical.sealWrite {acc : Acc} {v : Word} (hs : Canonical s) : Canonical (sealWrite s acc v).1 :=
  .fst_ite hs (.fst_ite hs (.fst_ite hs.setRg.pair hs.setRg.modSec.pair))

theorem Canonical.kpAck {rd : Word} {err : Bool} (hs : Canonical s) : Canonical (kpAck s rd err) := by
  unfold Machine.kpAck
  split
  · exact .ite hs.modSec (.ite hs.modSec hs.setRg.modSec)
  · exact hs

theorem Canonical.kpTimeout (hs : Canonical s) : Canonical (kpTimeout s) := by
  unfold Machine.kpTimeout
  split
  · exact .ite hs.modSec hs
  · exact hs

theorem Canonical.sealDone (hs : Canonical s) : Canonical (sealDone s) := by
  unfold Machine.sealDone
  split
  · split
    · exact .ite hs.modSec.modRg.measure hs.modSec.modRg
    · exact hs
  · exact hs

theorem Canonical.secFault (hs : Canonical s) : Canonical (secFault s) := .ite (Canonical.ite hs.rest hs).modSec (.ite hs.rest hs)

theorem Canonical.secRead {d : Desc} {acc : Acc} (hs : Canonical s) : Canonical (secRead s d acc t o).1 :=
  .fst_ite hs (.fst_ite hs (.fst_ite hs (.fst_ite hs (.fst_ite hs (.fst_ite hs (.fst_ite hs hs.plainRead))))))

theorem Canonical.secWrite {acc : Acc} {v : Word} (hs : Canonical s) : Canonical (secWrite s acc o v).1 :=
  .fst_ite hs.sealWrite (.fst_ite hs.grantWrite (.fst_ite (.ite (Canonical.ite hs.endUnlock hs).chalRequest
    (.ite hs.endUnlock hs)) hs.msgWrite))

/-! ### Registers of units -/

theorem Canonical.unitRead {d : Desc} {acc : Acc} (hs : Canonical s) : Canonical (unitRead s d acc t off).1 :=
  .fst_ite hs.schRead (.fst_ite hs.evcRead (.fst_ite hs.mbxRead (.fst_ite hs.portRead (.fst_ite hs.seqRead (.fst_ite hs.tmrRead
    (.fst_ite hs.datRead hs.pwmRead))))))

theorem Canonical.unbindSrc {s : State} {t n : Nat} (hs : Canonical s) : Canonical (unbindSrc s t n) := by
  have hset : Canonical (Machine.setSrc s (t * 1024 + n) {}) := hs.setSrc
  exact .ite hs { hset with regs := rwf_filter _ hset.regs, staged := rwf_filter _ hset.staged }

theorem Canonical.unitPut {d : Desc} {acc : Acc} {v : Word} {flit : Bool} (hs : Canonical s) :
    Canonical (unitPut s d acc t off v flit).1 :=
  .fst_ite hs.schWrite (.fst_ite hs.evcWrite (.fst_ite hs.mbxWrite (.fst_ite hs.portWrite (.fst_ite hs.seqWrite (.fst_ite hs.tmrWrite
    (.fst_ite hs.datWrite hs.pwmWrite))))))

theorem Canonical.unitWrite {d : Desc} {acc : Acc} {v : Word} {flit : Bool} (hs : Canonical s) :
    Canonical (unitWrite s d acc t off v flit).1 :=
  hs.unitPut.foldl fun _ _ ht => ht.unbindSrc

theorem Canonical.stagedLive (hs : Canonical s) : Canonical (stagedLive s f) := hs.foldl fun _ _ ht => ht.setRg

/-! ### The NVM port -/

theorem Canonical.nvmSetOwner {o : Word} (hs : Canonical s) : Canonical (nvmSetOwner s o) := hs.rest.setRg

theorem Canonical.nvmAcquire {acc : Acc} (hs : Canonical s) : Canonical (nvmAcquire s acc).1 :=
  .fst_ite hs (.fst_ite hs (.ite hs.nvmSetOwner hs))

theorem Canonical.nvmRelease (hs : Canonical s) : Canonical (nvmRelease s) := .ite hs hs.nvmSetOwner

theorem Canonical.nvmCommand {v : Word} (hs : Canonical s) : Canonical (nvmCommand s v).1 :=
  .fst_ite hs.modRg.pair (.fst_ite hs (.fst_ite hs (.fst_ite hs.modRg.pair hs.rest.pair)))

theorem Canonical.nvmIssue (hs : Canonical s) : Canonical (nvmIssue s) := by
  unfold Machine.nvmIssue
  split
  · exact .ite hs.rest hs
  · exact hs

theorem Canonical.nvmEnd {c : NvmCmd} {b : Nat} (hs : Canonical s) : Canonical (nvmEnd s c b) := .ite hs.rest.modRg hs.rest
theorem Canonical.nvmProgram {s : State} {page gran : Nat} (hs : Canonical s) : Canonical (nvmProgram s page gran) := hs.writeFlash

theorem Canonical.nvmEffect {s : State} {c : NvmCmd} (hs : Canonical s) : Canonical (nvmEffect s c).1 := by
  unfold Machine.nvmEffect
  split
  · exact .fst_ite hs.tagReady.hwWrite hs.tagReady
  · exact .fst_ite hs.tagReady.touchMem.nvmProgram hs.tagReady
  · exact hs.eraseFlash

theorem Canonical.nvmDone (hs : Canonical s) : Canonical (nvmDone s) := by
  unfold Machine.nvmDone
  split
  · exact .ite hs.nvmEffect.nvmEnd hs
  · exact hs

theorem Canonical.nvmTimeout (hs : Canonical s) : Canonical (nvmTimeout s) := by
  unfold Machine.nvmTimeout
  split
  · exact .ite hs.nvmEnd hs
  · exact hs

theorem Canonical.nvmRead {d : Desc} {acc : Acc} (hs : Canonical s) : Canonical (nvmRead s d acc o).1 := by
  unfold Machine.nvmRead
  split
  · exact hs.nvmAcquire
  · exact hs
  · exact hs
  · exact hs.plainRead

theorem Canonical.nvmWrite {d : Desc} {v : Word} (hs : Canonical s) : Canonical (nvmWrite s d o v).1 := by
  unfold Machine.nvmWrite
  split
  · exact (Canonical.ite hs.nvmRelease hs).pair
  · exact hs.nvmCommand
  · exact hs.plainWrite.pair

/-! ### Placing and removing functions -/

theorem Canonical.blockPlaced {b : Nat} (hs : Canonical s) : Canonical (blockPlaced s t b) := hs.markGood.mirrorPut
theorem Canonical.blockBase {b : Nat} (hs : Canonical s) : Canonical (blockBase s t b) := .ite hs.writeBlock hs

theorem Canonical.placeAll {s : State} {ks : List Nat} {blk : Nat → Nat × Nat} {put : State → Nat → State} (hs : Canonical s)
    (hput : ∀ u k, Canonical u → Canonical (put u k)) : Canonical (placeAll s ks blk put) :=
  ((hs.foldl fun _ _ ht => ht.blockBase).foldl hput).foldl fun _ _ ht => ht.blockPlaced

theorem Canonical.decOff (hs : Canonical s) : Canonical (decOff s f) := hs.placeAll fun _ _ ht => ht.modDec

theorem Canonical.zeroCode {s : State} {f : Nat} (hs : Canonical s) : Canonical (zeroCode s f) :=
  hs.foldl fun _ _ ht => ht.eraseCode.setCodeTag.blockPlaced

theorem Canonical.zeroMicro (hs : Canonical s) : Canonical (zeroMicro s f) :=
  (hs.placeAll (fun _ _ ht => ht.setUWord)).placeAll (fun _ _ ht => ht.setDec)

theorem Canonical.untagCode (hs : Canonical s) : Canonical (untagCode s f) := hs.foldl fun _ _ ht => ht.modCodeTag
theorem Canonical.untagMicro (hs : Canonical s) : Canonical (untagMicro s f) := hs.foldl fun _ _ ht => ht.modUWord
theorem Canonical.ctxsGone (hs : Canonical s) : Canonical (ctxsGone s f) := hs.foldl fun _ _ ht => ht.zeroCtx.ctxWritten

theorem Canonical.fnGone (hs : Canonical s) : Canonical (fnGone s f) :=
  ((((hs.decOff.freeLocks.ctxsGone.clearFnSrcs.foldl fun _ _ ht => ht.mbxReset).foldl fun _ _ ht => ht.modMbx).foldl fun _ _ ht =>
    ht.modSeq).seqRelease.foldl fun _ _ ht => ht.freezeSync).wdSync

theorem Canonical.fnNotice (hs : Canonical s) : Canonical (fnNotice s f) := hs.raiseEdge

theorem Canonical.unloadPort {s : State} {p : Nat} (hs : Canonical s) : Canonical (unloadPort s p) :=
  (hs.foldl fun _ _ ht => ht.setFlow.setTxQ).dropRegs.setPort

theorem Canonical.unloadPair (hs : Canonical s) : Canonical (unloadPair s k) := hs.setPair
theorem Canonical.unnameFixed (hs : Canonical s) : Canonical (unnameFixed s f) := hs.foldl fun _ _ ht => .ite ht.modSrc ht

theorem Canonical.fnLeave {reason : Nat} (hs : Canonical s) : Canonical (fnLeave s f reason) :=
  (((((Canonical.ite hs.fnGone.untagCode hs.fnGone.untagCode.untagMicro).foldl fun _ _ ht => ht.unloadPort).foldl fun _ _ ht =>
    ht.unloadPair).foldl fun _ _ ht => ht.pwmStop).foldl fun _ _ ht => ht.tmrUnload).unnameFixed.modFn.fnNotice

theorem Canonical.leaveDone (hs : Canonical s) : Canonical (leaveDone s f) := .ite hs.fnLeave hs
theorem Canonical.fnUnload (hs : Canonical s) : Canonical (fnUnload s f) := hs.decOff.untagCode.modFn.leaveDone
theorem Canonical.zeroDone (hs : Canonical s) : Canonical (zeroDone s f) := .ite hs.zeroCode.zeroMicro.modFn hs.leaveDone

theorem Canonical.placeCode {s : State} {f p t dest : Nat} {bs : List Byte} (hs : Canonical s) : SomeKept (placeCode s f p t dest bs) :=
  .ite .none (.some (hs.writeCode.foldl fun _ _ ht => ht.setCodeTag.blockPlaced))

theorem Canonical.placeMicro {s : State} {f p t q dest : Nat} {bs : List Byte} (hs : Canonical s) :
    SomeKept (placeMicro s f p t q dest bs) :=
  .ite .none (.some (hs.placeAll fun _ _ ht => ht.setUWord))

theorem SomeKept.placeDecOne {f p t q n : Nat} {w : Word} {r : Option State} (hr : SomeKept r) : SomeKept (placeDecOne f p t q n w r) :=
  hr.bind fun _ ht => .ite (.some ht) (.ite .none (.some (ht.placeAll fun _ _ hu => hu.setDec)))

theorem Canonical.placeDec {s : State} {f p t q dest : Nat} {bs : List Byte} (hs : Canonical s) : SomeKept (placeDec s f p t q dest bs) :=
  .ite .none ((SomeKept.some hs).foldl fun _ _ hr => hr.placeDecOne)

theorem Canonical.placeSched {bs : List Byte} (hs : Canonical s) : Canonical (placeSched s f bs) := hs.modFn

theorem Canonical.placeData {s : State} {f t dest : Nat} {bs : List Byte} (hs : Canonical s) : SomeKept (placeData s f t dest bs) :=
  .ite (.some hs.hwWrite) .none

theorem Canonical.placeProg {s : State} {f t dest : Nat} {bs : List Byte} (hs : Canonical s) : SomeKept (placeProg s f t dest bs) :=
  .ite .none (.some (hs.foldl fun _ _ ht => ht.setRg))

theorem SomeKept.placeSetting {f p t off : Nat} {v : Word} {r : Option State} (hr : SomeKept r) :
    SomeKept (placeSetting f p t off v r) := by
  refine hr.bind fun u hu => .ite (.some hu) (.ite ?_ ?_)
  · split
    · next he => exact .some (hu.winTsbp.of_fst he)
    · exact .none
  · split
    · exact .none
    · refine .ite .none ?_
      split
      · next he => exact .some (hu.unitWrite.of_fst he)
      · exact .none

theorem Canonical.placeSettings {s : State} {f p t : Nat} {bs : List Byte} (hs : Canonical s) : SomeKept (placeSettings s f p t bs) :=
  (SomeKept.some hs).foldl fun _ _ hr => hr.placeSetting

theorem Canonical.placeSec {s : State} {f p : Nat} {x : SecEnt} {bs : List Byte} (hs : Canonical s) : SomeKept (placeSec s f p x bs) := by
  refine .ite (.some hs.placeSched) (.ite .none (.ite (.some hs.modFn) ?_))
  split
  · exact hs.placeCode
  · exact hs.placeMicro
  · exact hs.placeDec
  · exact hs.placeData
  · exact hs.placeProg
  · exact hs.placeSettings
  · exact .none

theorem Canonical.loadOne {f p : Nat} {e : ParcelEntry} {r : State × Nat × Option Nat} {x : SecEnt} (hr : Canonical r.1) :
    Canonical (loadOne f p e r x).1 := by
  refine .fst_ite hr (.fst_ite hr (.fst_ite hr (.fst_ite hr ?_)))
  split
  · next he => exact hr.placeSec _ he
  · exact hr

theorem Canonical.loadRefused {reason : Nat} (hs : Canonical s) : Canonical (loadRefused s f reason) := by
  unfold Machine.loadRefused
  exact hs.zeroCode.zeroMicro.fnLeave.modFn

theorem Canonical.fnLoadEnd {reason : Nat} {ep : Option Nat} (hs : Canonical s) : Canonical (fnLoadEnd s f reason ep) := by
  unfold Machine.fnLoadEnd
  split
  · exact (hs.modFn.foldl fun _ _ ht => ht.modCtx).fnNotice
  · exact hs.loadRefused

theorem Canonical.loadFn {e : ParcelEntry} {ents : List SecEnt} (hs : Canonical s) : Canonical (loadFn s f p e ents) :=
  (Canonical.fst_foldl hs (fun _ _ ht => ht.loadOne)).fnLoadEnd

theorem Canonical.fnLoading (hs : Canonical s) : Canonical (fnLoading s f) := by
  unfold Machine.fnLoading
  exact hs.fnGone.zeroCode.modFn

/-! ### Function states and watchdogs -/

theorem Canonical.loadSrcs (hs : Canonical s) : Canonical (loadSrcs s f) :=
  ((hs.foldl fun _ _ ht => .ite ht.modSrc ht).foldl fun _ _ ht => ht.modSrc).foldl fun _ _ ht => ht.modSrc

theorem Canonical.ctxBlockLost (hs : Canonical s) : Canonical (ctxBlockLost s t i) := hs.modCtx.writeFault
theorem Canonical.ctxFound (hs : Canonical s) : Canonical (ctxFound s c) := hs.foldl fun _ _ ht => .ite ht.markGood.ctxBlockLost ht

theorem Canonical.fnAccept (hs : Canonical s) : Canonical (fnAccept s f) :=
  (((((((hs.loadSrcs.stagedLive.modFn.foldl fun _ _ ht => ht.ctxFound.residentCtx).foldl fun _ _ ht => ht.portEnable).foldl fun _ _ ht
    => ht.tmrEnable).foldl fun _ _ ht => .ite ht.seqLevels.startSeq ht.seqLevels).foldl fun _ _ ht => ht.mbxLevel).foldl fun _ _ ht =>
      .ite ht.pwmStart ht).fnNotice.foldl fun _ _ ht => ht.freezeSync).wdSync

theorem Canonical.fnEnable (hs : Canonical s) : Canonical (fnEnable s f) := by
  unfold Machine.fnEnable
  split
  · exact hs.fnAccept
  · exact hs.modFn

theorem Canonical.fnStop (hs : Canonical s) : Canonical (fnStop s f) := .ite hs.modFn hs

theorem Canonical.fnQuiet (hs : Canonical s) : Canonical (fnQuiet s f) :=
  ((hs.foldl fun _ _ ht => (Canonical.ite ht.abandon ht).parkCtx.ctxWritten).foldl fun _ _ ht => ht.stopSeq).modFn.fnNotice.wdSync

theorem Canonical.drainDone (hs : Canonical s) : Canonical (drainDone s f) := .ite hs.fnQuiet hs

theorem Canonical.drainForce (hs : Canonical s) : Canonical (drainForce s f) := by
  unfold Machine.drainForce
  split
  · exact .ite ((hs.foldl fun _ _ ht => .ite ht.abandon ht).foldl fun _ _ ht => ht.retireAll).modFn.fnQuiet hs
  · exact hs

theorem Canonical.fnReload (hs : Canonical s) : Canonical (fnReload s f) := hs.fnLoading.rest

theorem Canonical.reloadBegin (hs : Canonical s) : Canonical (reloadBegin s) := by
  unfold Machine.reloadBegin
  split
  · exact .ite hs hs.rest
  · exact hs

theorem Canonical.dirMeasure {b : List Byte} (hs : Canonical s) : Canonical (dirMeasure s p b) := hs.measure

theorem Canonical.reloadEnd {readOk : Bool} (hs : Canonical s) : Canonical (reloadEnd s readOk) := by
  unfold Machine.reloadEnd
  dsimp only
  split
  · exact hs
  · refine .ite hs ?_
    split
    · exact hs.rest.zeroMicro
    · refine .ite hs.rest.zeroMicro.loadRefused (.ite hs.rest.zeroMicro.loadRefused ?_)
      split
      · exact hs.rest.zeroMicro.dirMeasure.loadFn
      · exact hs.rest.zeroMicro.loadRefused

theorem Canonical.fnReason {r : Nat} (hs : Canonical s) : Canonical (fnReason s f r) := hs.modFn

theorem Canonical.fnAct {unload reload en : Bool} (hs : Canonical s) : Canonical (fnAct s f unload reload en) := by
  unfold Machine.fnAct
  refine .ite (.ite hs.fnUnload (.ite hs.fnReason (.ite hs.fnReason hs))) (.ite (.ite hs.fnReason (.ite hs.fnReason hs.fnReload))
    (.ite ?_ hs.fnStop))
  split
  · exact hs.fnReason
  · exact hs.fnReason
  · exact hs.fnEnable
  · exact hs
  · exact hs.fnReason

theorem Canonical.fnCtlWrite {acc : Acc} {v : Word} (hs : Canonical s) : Canonical (fnCtlWrite s acc f v).1 :=
  .fst_ite (.fst_ite hs hs.fnStop) (.fst_ite hs (Canonical.ite hs.fnLeave hs).modFn.fnAct)

theorem Canonical.fnRegWrite {acc : Acc} {v : Word} (hs : Canonical s) : Canonical (fnRegWrite s acc o v).1 :=
  .fst_ite hs.fnCtlWrite hs.modFn.pair

theorem Canonical.wdKick (hs : Canonical s) : Canonical (wdKick s p) := .ite hs.wdRestart hs

theorem Canonical.wdExpire (hs : Canonical s) : Canonical (wdExpire s p) :=
  have ht := hs.modRg.raiseEdge.writeFault
  .ite hs (Canonical.ite (ht.foldl fun _ _ hu => hu.fnStop) ht).wdRestart

theorem Canonical.wdCtl {v : Word} (hs : Canonical s) : Canonical (wdCtl s p v) := .ite hs.wdKick (.ite hs hs.setRg.wdRestart)

theorem Canonical.wdRead {d : Desc} {acc : Acc} (hs : Canonical s) : Canonical (wdRead s d acc o).1 := by
  unfold Machine.wdRead
  split
  · exact hs
  · exact hs
  · exact hs.plainRead

theorem Canonical.wdWrite {d : Desc} {v : Word} (hs : Canonical s) : Canonical (wdWrite s d o v).1 := .fst_ite hs.wdCtl hs.plainWrite

/-! ### Configuration registers -/

theorem Canonical.hpStatWrite {acc : Acc} {v : Word} (hs : Canonical s) : Canonical (hpStatWrite s acc v) := by
  unfold Machine.hpStatWrite
  split
  · exact hs
  · exact hs.modHp

theorem Canonical.clearXr (hs : Canonical s) : Canonical (clearXr s t p) := .ite hs.modRg hs

theorem Canonical.cfgRead {d : Desc} {acc : Acc} (hs : Canonical s) : Canonical (cfgRead s d acc t o).1 :=
  .fst_ite hs (.fst_ite hs (.fst_ite hs.nvmRead (.fst_ite hs.wdRead (.fst_ite hs (.fst_ite hs (.fst_ite hs (.fst_ite hs
    (.fst_ite hs hs.plainRead))))))))

theorem Canonical.cfgWrite {d : Desc} {acc : Acc} {v : Word} (hs : Canonical s) : Canonical (cfgWrite s d acc t o v).1 :=
  .fst_ite hs.nvmWrite (.fst_ite (.ite hs.clearXr hs) (.fst_ite hs.wdWrite (.fst_ite hs.fnRegWrite
    (.fst_ite hs.hpStatWrite hs.plainWrite))))

/-! ### The bus -/

theorem Canonical.storeFound {s : State} {t off : Nat} (hs : Canonical s) : Canonical (storeFound s t off).1 := by
  unfold Machine.storeFound
  split
  · exact hs
  · exact hs.askPartner

theorem Canonical.winFound (hs : Canonical s) : Canonical (winFound s t o) := .ite hs.markGood.ctxBlockLost hs

theorem Canonical.regRead {d : Desc} {a : Acc} (hs : Canonical s) : Canonical (regRead s d a t off).1 :=
  .fst_ite hs.cfgRead (.fst_ite hs.unitRead (.fst_ite hs.lnkRead (.fst_ite hs.fltRead (.fst_ite hs (.fst_ite hs.pmcRead
    (.fst_ite hs.dbgRead (.fst_ite hs.secRead (.fst_ite hs.winFound hs))))))))

theorem Canonical.regWrite {d : Desc} {a : Acc} {v : Word} {flit : Bool} (hs : Canonical s) :
    Canonical (regWrite s d a t off v flit).1 :=
  .fst_ite hs.cfgWrite (.fst_ite hs.unitWrite (.fst_ite hs.lnkWrite (.fst_ite hs.fltWrite (.fst_ite hs.pwrWrite (.fst_ite hs.pmcWrite
    (.fst_ite hs.dbgWrite (.fst_ite hs.secWrite (.fst_ite hs.winFound.winWrite hs))))))))

theorem Canonical.denyAt {a : Acc} {addr : Nat} (hs : Canonical s) : Canonical (denyAt s a addr) := .ite hs hs.countDeny

theorem Canonical.countAcc {a : Acc} {own : Nat} (hs : Canonical s) : Canonical (countAcc s a t code own) :=
  .ite hs.countEvent hs.countTile

theorem Canonical.busRead {a : Acc} {addr : Nat} (hs : Canonical s) : Canonical (busRead s a addr n).1 := by
  unfold Machine.busRead
  refine
    have ht := hs.tagReady.touchMem.countAcc
    .fst_ite hs.denyAt.pair (.fst_ite (.fst_ite hs.tagReady.denyAt.pair (.fst_ite ht ht)) ?_)
  split
  · next he => exact hs.storeFound.of_fst he
  · next he =>
      refine .fst_ite (hs.storeFound.of_fst he) ?_
      split
      · exact hs.storeFound.of_fst he
      · exact (Canonical.fst_ite (hs.storeFound.of_fst he) (hs.storeFound.of_fst he).regRead).countAcc.pair

theorem Canonical.busWrite {a : Acc} {addr v : Nat} {flit : Bool} (hs : Canonical s) : Canonical (busWrite s a addr n v flit).1 := by
  unfold Machine.busWrite
  refine .fst_ite hs.denyAt.pair (.fst_ite (.fst_ite hs.tagReady.denyAt.pair hs.tagReady.touchMem.memWrite.countAcc.pair) ?_)
  split
  · exact hs
  · split
    · next he => exact hs.countAcc.regWrite.of_fst he
    · next he => exact hs.countAcc.regWrite.of_fst he
    · next he => exact (hs.countAcc.regWrite.of_fst he).denyAt.pair

theorem Canonical.bytesWrite {a : Acc} {addr v : Nat} {flit : Bool} (hs : Canonical s) : Canonical (bytesWrite s a addr n v flit).1 := by
  unfold Machine.bytesWrite
  refine .fst_ite hs.busWrite ?_
  split
  · next he => exact (hs.busWrite.of_fst he).memWrite.pair
  · next he => exact hs.busWrite.of_fst he

/-! ### Memory accesses and exceptions of contexts -/

theorem Canonical.doStore {x : Store} (hs : Canonical s) : Canonical (doStore s c x) := hs.bytesWrite
theorem Canonical.drainStores (hs : Canonical s) : Canonical (drainStores s c k) := hs.modCtx.foldl fun _ _ ht => ht.doStore
theorem Canonical.fence (hs : Canonical s) : Canonical (fence s c) := hs.drainStores
theorem Canonical.drainFor (hs : Canonical s) : Canonical (drainFor s c a n) := hs.drainStores
theorem Canonical.wakeTxn (hs : Canonical s) : Canonical (wakeTxn s t) := hs.foldl fun _ _ ht => .ite ht.modCtx ht

theorem Canonical.stampRan (hs : Canonical s) : Canonical (stampRan s c) := by
  unfold Machine.stampRan
  exact hs.modCtx.modTile

theorem Canonical.stallIn {w : Wait} (hs : Canonical s) : Canonical (stallIn s c w) := hs.modCtx.stampRan.reschedOf
theorem Canonical.slotWait (hs : Canonical s) : Canonical (slotWait s c) := hs.modCtx
theorem Canonical.blockAccess (hs : Canonical s) : Canonical (blockAccess s c off n).1 := hs.tagReady.touchMem
theorem Canonical.saveRegs (hs : Canonical s) : Canonical (saveRegs s c k) := hs.foldl fun _ _ ht => ht.memWrite

theorem Canonical.entry {cause detail : Nat} {addr : Word} {epc : BitVec 20} {vec : Option (BitVec 20)} (hs : Canonical s) :
    Canonical (entry s c cause detail addr epc vec) :=
  have ht := hs.fence.modCtx.blockAccess
  .ite hs.fence.unhandled (.ite ht.lockEngine ht.stallIn)

theorem Canonical.entryStores {e : Entering} (hs : Canonical s) : Canonical (entryStores s c e) := by
  unfold Machine.entryStores
  exact
    have ht := Canonical.fst_ite hs.blockAccess.pair hs.blockAccess.blockAccess
    .ite ht.lockEngine ht.memWrite.memWrite.memWrite.saveRegs.modCtx.countCtx

theorem Canonical.stepEnds (hs : Canonical s) : Canonical (stepEnds s c) := .ite hs.modCtx hs

theorem Canonical.raiseAt {cause detail : Nat} {addr : Word} {epc : BitVec 20} (hs : Canonical s) :
    Canonical (raiseAt s c cause detail addr epc) :=
  (Canonical.ite hs.countCtx hs).stepEnds.stampRan.entry.reschedOf

theorem Canonical.raise_ {cause detail : Nat} {addr : Word} (hs : Canonical s) : Canonical (raise_ s c cause detail addr) := hs.raiseAt
theorem Canonical.deliverInside (hs : Canonical s) : Canonical (deliverInside s c n) := hs.deliver.entry.modCtx.countCtx
theorem Canonical.finish (hs : Canonical s) : Canonical (finish s c) := hs.freshOf.countCtx.countCtx.modCtx.stampRan.stepEnds.reschedOf

theorem Canonical.rfeReturn (hs : Canonical s) : Canonical (rfeReturn s c e) :=
  have ht := Canonical.fst_ite hs.blockAccess hs.blockAccess.blockAccess
  .ite ht.stepEnds.abandon.reschedOf (Canonical.ite ht.modCtx.completeSrc ht).modCtx.finish

theorem Canonical.doRfe (hs : Canonical s) : Canonical (doRfe s c) := by
  unfold Machine.doRfe
  refine .ite hs.fence.stepEnds.unhandled.reschedOf ?_
  split
  · exact .ite hs.fence.stepEnds.unhandled.reschedOf hs.fence.rfeReturn
  · exact .ite hs.fence.slotWait (.ite hs.fence.blockAccess.stepEnds.abandon.reschedOf hs.fence.blockAccess.stallIn)

theorem Canonical.next4 (hs : Canonical s) : Canonical (next4 s c) := hs.modCtx.finish
theorem Canonical.setV {w : Vec} (hs : Canonical s) : Canonical (setV s c n w) := hs.modCtx

theorem Canonical.ownRead {acc : Acc} (hs : Canonical s) : Canonical (ownRead s c acc a n).1 := by
  unfold Machine.ownRead
  refine .fst_ite hs.slotWait.pair (.fst_ite hs.stallIn.pair ?_)
  split
  · exact hs.askPartner.stallIn.pair
  · split
    · next he => exact (hs.drainFor.busRead.of_fst he).stallIn.pair
    · next he => exact hs.drainFor.busRead.of_fst he

theorem Canonical.ctxReadAs {acc : Acc} (hs : Canonical s) : Canonical (ctxReadAs s c acc a n).1 := by
  unfold Machine.ctxReadAs
  split
  · split
    · exact hs
    · exact hs
  · refine .fst_ite hs.ownRead ?_
    split
    · exact .fst_ite hs.stallIn.pair (.fst_ite hs.nextTag.sendFlit.stallIn.pair hs.nextTag.sendFlit.denyAt.pair)
    · exact hs.denyAt.pair

theorem Canonical.ctxRead (hs : Canonical s) : Canonical (ctxRead s c a n).1 := hs.ctxReadAs
theorem Canonical.denied {d : Nat} (hs : Canonical s) : Canonical (denied s c d).1 := hs.countDeny

theorem Canonical.ctxStore {v : Nat} (hs : Canonical s) : Canonical (ctxStore s c a n v).1 := by
  unfold Machine.ctxStore
  refine .fst_ite ?_ ?_
  · split
    · exact .fst_ite hs hs.modCtx.pair
    · exact hs.denied
  · split
    · exact .fst_ite hs.slotWait.pair (.fst_ite hs.countCtx.stallIn.pair (.fst_ite hs.stallIn.pair hs.modCtx.pair))
    · next he => exact hs.busWrite.of_fst he

theorem Canonical.storeDone (hs : Canonical s) : Canonical (storeDone s c) := by
  unfold Machine.storeDone
  split
  · exact hs
  · exact .ite hs (Canonical.ite hs.drainStores.wakeTxn.modCtx hs.drainStores.wakeTxn).reschedOf

theorem Canonical.releaseOver (hs : Canonical s) : Canonical (releaseOver s c) :=
  .ite hs.modCtx (.ite hs.modCtx.endActivation.reschedOf (.ite hs.modCtx.modCtx.reschedOf hs.modCtx.modCtx.reschedOf))

theorem Canonical.doCommit {ending : Bool} (hs : Canonical s) : Canonical (doCommit s c ending) := by
  unfold Machine.doCommit
  exact .ite hs.fence.countCtx.modCtx.finish.releaseOver hs.fence.countCtx.modCtx.finish

theorem Canonical.releaseOne (hs : Canonical s) : Canonical (releaseOne s c) := by
  unfold Machine.releaseOne
  split
  · exact hs
  · refine .ite hs (.ite (Canonical.releaseOver ?_) ?_)
    all_goals
      split
      · exact
          have ht := (Canonical.ite hs.copyMasked hs).modCtx.countCtx
          .ite ht.denyAt ht.mbxSend
      · exact
          have ht := (Canonical.ite hs.copyMasked hs).modCtx.countCtx
          .ite (.ite ht ht.doStore) (.ite ht.sendFlit ht.sendFlit.countDeny)

theorem Canonical.askResend {b : Nat} (hs : Canonical s) : Canonical (askResend s t b) := hs.askPartner

theorem Canonical.watchExec (hs : Canonical s) : Canonical (watchExec s c).1 := by
  unfold Machine.watchExec
  dsimp only
  split
  · next he => exact (hs.bwTake.bwAct.of_fst he).raise_.pair
  · next he => exact hs.bwTake.bwAct.of_fst he

theorem Canonical.watchData {rd wr : Bool} {v : Nat} (hs : Canonical s) : Canonical (watchData s c rd wr a n v).1 := hs.bwTake.bwAct

theorem Canonical.breakAfter {n : Option Nat} (hs : Canonical s) : Canonical (breakAfter s c n) := by
  unfold Machine.breakAfter
  split
  · exact hs.raise_
  · exact hs

theorem Canonical.runInsn {s : State} {c : Nat} {rep ok : Bool} {body : State → State} (hs : Canonical s)
    (hbody : ∀ u, Canonical u → Canonical (body u)) : Canonical (runInsn s c rep ok body) := by
  have hwatch : Canonical (if rep || (getCtx s c).mid then (s, false) else Machine.watchExec s c).1 := .fst_ite hs hs.watchExec
  refine .ite hs (.ite hs (.ite hs.raise_ (.ite hs.askResend.stallIn ?_)))
  split
  · next he => exact hwatch.of_fst he
  · next he => exact .ite (hbody _ (hwatch.of_fst he)) (hwatch.of_fst he).raise_

theorem Canonical.runReg {s : State} {c : Nat} {f : BitVec 23} {ok : Bool} {w : State → Vec} (hs : Canonical s) :
    Canonical (runReg s c f ok w) :=
  hs.runInsn fun _ ht => ht.setV.next4

/-! ### Register accesses of agents -/

theorem Canonical.answer {ag : Agent} {v : Word} {refused : Bool} (hs : Canonical s) : Canonical (answer s ag v refused) := by
  unfold Machine.answer
  split
  · exact .ite hs.rest hs.rest
  · exact hs.rest

theorem Canonical.agentWrite {ag : Agent} {addr : Nat} {v : Word} (hs : Canonical s) : Canonical (agentWrite s ag addr v) :=
  .ite hs.denyAt.answer hs.busWrite.answer

theorem Canonical.agentRead {ag : Agent} {addr : Nat} (hs : Canonical s) : Canonical (agentRead s ag addr) :=
  .ite hs.denyAt.answer hs.busRead.answer

/-! ### The host port -/

theorem Canonical.sendClosed {a : Acc} {tag : BitVec 16} {r : State × Sent} {x : Nat × List Word} (hr : Canonical r.1) :
    Canonical (sendClosed a tag r x).1 := by
  refine .fst_ite ?_ ?_
  · split
    · next he => exact hr.closeMsg.of_fst he
    · next he => exact hr.closeMsg.of_fst he
    · next he => exact hr.closeMsg.of_fst he
  · dsimp only
    have hsent := Canonical.fst_foldl (l := mbxFlits a x.1 tag x.2) (p := (r.1, true))
      (g := fun q fl => ((Machine.sendFlit q.1 0 fl).1, q.2 && (Machine.sendFlit q.1 0 fl).2)) hr fun _ _ hq => hq.sendFlit.pair
    exact .fst_ite hsent hsent.countDeny

theorem Canonical.sendWord {a : Acc} {v : Word} {last : Bool} {tag : BitVec 16} (hs : Canonical s) :
    Canonical (sendWord s a m v last tag).1 :=
  (Canonical.fst_foldl hs (fun _ _ ht => ht.sendClosed)).setOpenMsg

theorem Canonical.putResp {r : HostReq} {v : Nat} {err : Bool} (hs : Canonical s) : Canonical (putResp s r v err) := hs.rest

theorem Canonical.respond {r : HostReq} {v : Nat} {err : Bool} (hs : Canonical s) : Canonical (respond s r v err) :=
  .ite hs.rest hs.putResp

theorem Canonical.hostFlush {s : State} {n : Nat} (hs : Canonical s) : Canonical (hostFlush n s) := by
  induction n generalizing s with
  | zero => exact hs
  | succ n ih =>
    unfold Machine.hostFlush
    dsimp only
    split
    · exact ih hs.rest.putResp
    · exact hs

theorem Canonical.hostLocal {r : HostReq} (hs : Canonical s) : Canonical (hostLocal s r) := .ite hs.busWrite.respond hs.busRead.respond

theorem Canonical.hostCarry {r : HostReq} (hs : Canonical s) : Canonical (hostCarry s r) := by
  unfold Machine.hostCarry
  dsimp only
  split
  · next he => exact (hs.nextTag.sendFlit.of_fst he).rest
  · next he => exact (hs.nextTag.sendFlit.of_fst he).countDeny.respond

theorem Canonical.hostMessage {r : HostReq} {last : Bool} (hs : Canonical s) : Canonical (hostMessage s r m last) :=
  .ite hs.denyAt.respond (.ite hs.nextTag.sendWord.respond hs.nextTag.sendWord.rest)

theorem Canonical.hostIssue {r : HostReq} (hs : Canonical s) : Canonical (hostIssue s r) := by
  unfold Machine.hostIssue
  dsimp only
  split
  · exact hs.hostMessage
  · exact .ite hs.hostLocal hs.hostCarry

theorem Canonical.hostRequest {r : HostReq} (hs : Canonical s) : Canonical (hostRequest s r) := .ite hs (.ite hs.rest hs.hostIssue)

theorem Canonical.hostRetry {s : State} {n : Nat} (hs : Canonical s) : Canonical (hostRetry n s) := by
  induction n generalizing s with
  | zero => exact hs
  | succ n ih =>
    unfold Machine.hostRetry
    split
    · exact .ite hs (ih hs.rest.hostIssue)
    · exact hs

theorem Canonical.hostTaken (hs : Canonical s) : Canonical (hostTaken s) := .ite hs hs.rest.hostRetry

theorem Canonical.hostSlow (hs : Canonical s) : Canonical (hostSlow s) := by
  unfold Machine.hostSlow
  split
  · exact .ite hs.modHp hs
  · exact hs

theorem Canonical.hostAnswer {tag : BitVec 16} {v : Nat} {refused full : Bool} (hs : Canonical s) :
    Canonical (hostAnswer s tag v refused full) := by
  unfold Machine.hostAnswer
  dsimp only
  split
  · exact .ite (Canonical.ite hs.modHp hs).rest (Canonical.ite hs.modHp hs).rest.hostFlush
  · exact hs

/-! ### The scan port -/

theorem Canonical.modDbg {g : Dbg → Dbg} (hs : Canonical s) : Canonical (modDbg s g) := hs.rest

theorem Canonical.selectIr {code : BitVec 5} (hs : Canonical s) : Canonical (selectIr s code) := by
  unfold Machine.selectIr
  exact hs.modDbg.modDbg

theorem Canonical.dbgAnswered {v : Option Word} {full : Bool} (hs : Canonical s) : Canonical (dbgAnswered s v full) := hs.modDbg

theorem Canonical.dbgAnswer {tag : BitVec 16} {v : Nat} {refused full : Bool} (hs : Canonical s) :
    Canonical (dbgAnswer s tag v refused full) :=
  .ite (.ite hs.modHp hs) (.ite (Canonical.ite hs.modHp hs).dbgAnswered (Canonical.ite hs.modHp hs).modDbg)

theorem Canonical.dbgMessage {a : Acc} {last : Bool} {v : Word} (hs : Canonical s) : Canonical (dbgMessage s a m last v) :=
  .ite hs.denyAt.dbgAnswered (.ite hs.nextTag.sendWord.dbgAnswered hs.nextTag.sendWord.modDbg)

theorem Canonical.dbgIssue {q : DbgAcc} (hs : Canonical s) : Canonical (dbgIssue s q) := by
  unfold Machine.dbgIssue
  dsimp only
  split
  · exact hs.dbgMessage
  · refine .ite (.ite ?_ ?_) ?_
    · split
      · next he => exact (hs.busWrite.of_fst he).dbgAnswered
      · next he => exact .ite (hs.busWrite.of_fst he).dbgAnswered (hs.busWrite.of_fst he).dbgAnswered
    · split
      · next he => exact (hs.busRead.of_fst he).dbgAnswered
      · next he => exact (hs.busRead.of_fst he).dbgAnswered
    · split
      · next he => exact (hs.nextTag.sendFlit.of_fst he).modDbg
      · next he => exact (hs.nextTag.sendFlit.of_fst he).countDeny.dbgAnswered

theorem Canonical.dbgStart {q : DbgAcc} (hs : Canonical s) : Canonical (dbgStart s q) := .ite hs (.ite hs.modDbg hs.modDbg.dbgIssue)

theorem Canonical.dbgDone (hs : Canonical s) : Canonical (dbgDone s) := by
  unfold Machine.dbgDone
  split
  · exact hs.modDbg
  · exact hs

theorem Canonical.tapReset (hs : Canonical s) : Canonical (tapReset s) := hs.selectIr.modDbg.endUnlock

/-! ### Arriving flits -/

theorem Canonical.sendNak (hs : Canonical s) : Canonical (sendNak s t k) := hs.modLink
theorem Canonical.sendIdle (hs : Canonical s) : Canonical (sendIdle s t k) := hs.modLink

theorem Canonical.acceptFlit {fl : Flit} (hs : Canonical s) : Canonical (acceptFlit s t k fl) :=
  (Canonical.ite hs.modLink.takeLack hs.modLink).sendIdle

theorem Canonical.dropHop (hs : Canonical s) : Canonical (dropHop s t) := hs.modRg.writeFault

theorem Canonical.forward {fl : Flit} (hs : Canonical s) : Canonical (forward s t fl) := by
  unfold Machine.forward
  split
  · exact hs.putOnLink
  · exact hs.dropHop

theorem Canonical.rerouteAll (hs : Canonical s) : Canonical (rerouteAll s t) := hs.foldl fun _ _ ht => .ite ht ht.reroute

theorem Canonical.respondFlit {fl : Flit} {v : Nat} {refused full : Bool} (hs : Canonical s) :
    Canonical (respondFlit s t fl n v refused full) :=
  hs.sendFlit

theorem Canonical.writeBy {fl : Flit} (hs : Canonical s) : Canonical (writeBy s t fl).1 :=
  .fst_ite hs.countDeny (.fst_ite (.fst_ite hs.busWrite (.fst_ite hs hs.bytesWrite)) (.fst_foldl hs
    (fun _ _ ht => .fst_ite ht.busWrite ht)))

theorem Canonical.takeWrite {fl : Flit} (hs : Canonical s) : Canonical (takeWrite s t fl) := .ite hs.writeBy.respondFlit hs.writeBy

theorem Canonical.takeRead {fl : Flit} (hs : Canonical s) : Canonical (takeRead s t fl) :=
  .ite hs.countDeny.respondFlit hs.busRead.respondFlit

theorem Canonical.answerCtx {fl : Flit} (hs : Canonical s) : Canonical (answerCtx t fl s c) := by
  unfold Machine.answerCtx
  split
  · exact .ite hs.modCtx hs
  · exact hs

theorem Canonical.takeRdata {fl : Flit} (hs : Canonical s) : Canonical (takeRdata s t fl) :=
  have ht := hs.foldl fun _ _ ht => ht.answerCtx
  .ite ht ht.hostAnswer.dbgAnswer

theorem Canonical.takeDoorbell {fl : Flit} (hs : Canonical s) : Canonical (takeDoorbell s t fl) := .ite hs.ringDoorbell hs.countDeny

theorem Canonical.takeMessage {fl : Flit} {words : List Word} (hs : Canonical s) : Canonical (takeMessage s t fl words) :=
  .ite (.ite hs.countDeny.respondFlit hs.countDeny) (.ite (.ite hs.mbxDeliver.respondFlit hs.mbxDeliver) (.ite hs.respondFlit hs.modRg))

theorem Canonical.takeMail {fl : Flit} (hs : Canonical s) : Canonical (takeMail s t fl) := .ite hs.setTile hs.setTile.takeMessage
theorem Canonical.takeKick {fl : Flit} (hs : Canonical s) : Canonical (takeKick s t fl) := .ite hs.wdKick hs

theorem Canonical.takeMirreq {fl : Flit} (hs : Canonical s) : Canonical (takeMirreq s t fl) :=
  have ht := hs.foldl fun _ _ ht => ht.sendFlit
  .ite hs (.ite (.ite ht ht.modRg) (.ite hs.sendFlit hs.sendFlit.modRg))

theorem Canonical.resendLost {b : Nat} (hs : Canonical s) : Canonical (resendLost s t b) :=
  hs.modTile.writeFault.foldl fun _ _ ht => .ite ht.engineFault.reschedOf ht

theorem Canonical.askOver {key : Nat} (hs : Canonical s) : Canonical (askOver s t key) := hs.modTile

theorem Canonical.askLost {key : Nat} (hs : Canonical s) : Canonical (askLost s t key) :=
  .ite hs.resendLost (.ite hs.askOver.modTile hs.askOver)

theorem Canonical.resendTaken {b : Nat} {v : BitVec 512} (hs : Canonical s) : Canonical (resendTaken s t b v) := by
  unfold Machine.resendTaken
  exact hs.writeBlock.markGood.askOver.writeFault.modRg

theorem Canonical.reloadTaken {b : Nat} {v : BitVec 512} (hs : Canonical s) : Canonical (reloadTaken s t b v) :=
  hs.writeBlock.askOver.markGood

theorem Canonical.repairTaken {b : Nat} {v : BitVec 512} (hs : Canonical s) : Canonical (repairTaken s t b v) :=
  hs.askOver.modMirror.markGood.writeFault

theorem Canonical.takeMirdat {fl : Flit} (hs : Canonical s) : Canonical (takeMirdat s t fl) := by
  unfold Machine.takeMirdat
  refine .ite hs (.ite hs.askLost ?_)
  split
  · next he => exact .ite (hs.takeHalf.of_fst he).resendTaken (.ite (hs.takeHalf.of_fst he).reloadTaken
      (hs.takeHalf.of_fst he).repairTaken)
  · next he => exact hs.takeHalf.of_fst he

theorem Canonical.syncFall (hs : Canonical s) : Canonical (syncFall s t) := hs.modRg.modRg.modTile.raiseEdge.writeFault
theorem Canonical.steer (hs : Canonical s) : Canonical (steer s t) := hs.freshOf.setRg

theorem Canonical.exchangeDone {th : Int} (hs : Canonical s) : Canonical (exchangeDone s t th) :=
  have ht := hs.modTile.modRg.steer
  .ite ht.syncFall (.ite ht.modRg.modTile ht)

theorem Canonical.takeSync {fl : Flit} (hs : Canonical s) : Canonical (takeSync s t k fl) :=
  .ite (.ite hs hs.exchangeDone) hs.numberFlit.putOnLink

theorem Canonical.badGrant (hs : Canonical s) : Canonical (badGrant s t) := hs.writeFault

theorem Canonical.takeUnlock {w : Word} (hs : Canonical s) : Canonical (takeUnlock s t w) := by
  unfold Machine.takeUnlock
  refine Canonical.modTile ?_
  split
  · exact .ite hs hs.modTile.releaseDbg
  · exact hs

theorem Canonical.takeAuth {fl : Flit} (hs : Canonical s) : Canonical (takeAuth s t fl) :=
  .ite hs (.ite hs.setTile (.ite hs.setTile.badGrant (.ite hs.setTile.takeUnlock hs.setTile.setRg)))

theorem Canonical.takeGap {fl : Flit} (hs : Canonical s) : Canonical (takeGap s t fl) := hs.sendFlit
theorem Canonical.takeResync {fl : Flit} (hs : Canonical s) : Canonical (takeResync s t fl) := hs.modTile

theorem Canonical.takeCtrl {fl : Flit} (hs : Canonical s) : Canonical (takeCtrl s t fl) :=
  .ite hs.modTile.rerouteAll (.ite hs.keyTaken (.ite hs.takeAuth (.ite (.ite (hs.foldl fun _ _ ht => ht.setRg) hs) (.ite hs.takeGap
    (.ite hs.takeResync (.ite (.ite hs.haltAll hs) hs))))))

theorem Canonical.perform {fl : Flit} (hs : Canonical s) : Canonical (perform s t k fl) := by
  unfold Machine.perform
  split
  · exact hs.takeWrite
  · exact hs.takeRead
  · exact hs.takeRdata
  · exact hs.takeDoorbell
  · exact hs.takeMail
  · exact hs.takeKick
  · exact hs.takeMirwr
  · exact hs.takeMirreq
  · exact hs.takeMirdat
  · exact hs.takeSync
  · exact hs.takeCtrl
  · exact hs

theorem Canonical.modEseq {key : Nat} {g : EseqIn → EseqIn} (hs : Canonical s) : Canonical (modEseq s t key g) := hs.modTile
theorem Canonical.maskHeld {key : Nat} {fl : Flit} (hs : Canonical s) : Canonical (maskHeld s t key fl) := .ite hs.copyMasked.modEseq hs

theorem Canonical.releaseHeld {s : State} {n t k key : Nat} (hs : Canonical s) : Canonical (releaseHeld n s t k key) := by
  induction n generalizing s with
  | zero => exact hs
  | succ n ih =>
    unfold Machine.releaseHeld
    dsimp only
    split
    · exact ih hs.maskHeld.modEseq.perform
    · exact hs

theorem Canonical.deliverFlit {fl : Flit} (hs : Canonical s) : Canonical (deliverFlit s t k fl) :=
  .ite hs.perform (.ite hs (.ite hs.modEseq.perform.releaseHeld (.ite (.ite hs.modRg hs.modEseq) hs.modRg)))

theorem Canonical.rxPump {s : State} {n t : Nat} (hs : Canonical s) : Canonical (rxPump n s t) := by
  induction n generalizing s with
  | zero => exact hs
  | succ n ih =>
    unfold Machine.rxPump
    split
    · exact ih hs.modLink.deliverFlit
    · exact hs

theorem Canonical.takeFlit {fl : Flit} (hs : Canonical s) : Canonical (takeFlit s t k fl) :=
  .ite hs.acceptFlit.forward (.ite hs.acceptFlit.modLink hs.acceptFlit.deliverFlit.rxPump)

theorem Canonical.arrive {fl : Flit} (hs : Canonical s) : Canonical (arrive s t k fl) :=
  .ite hs (.ite (.ite hs.takeLack hs) (.ite hs.replayFrom (.ite hs.sendNak hs.takeFlit)))

theorem Canonical.arriveAs {typ : BitVec 4} {fl : Flit} (hs : Canonical s) : Canonical (arriveAs s typ t k fl) := .ite hs.arrive hs

theorem Canonical.crcError {fl : Flit} {crcBad : Bool} (hs : Canonical s) : Canonical (crcError s t k fl crcBad) :=
  .ite hs (.ite hs.modRg.modLink.sendNak (.ite hs.sendNak hs))

theorem Canonical.malformed {fl : Flit} (hs : Canonical s) : Canonical (malformed s t k fl) :=
  .ite hs (.ite hs.modRg (.ite hs.sendNak hs.acceptFlit.modRg))

/-! ### Branches -/

theorem Canonical.jumpTo {a : BitVec 20} (hs : Canonical s) : Canonical (jumpTo s c a) := hs.modCtx.finish

theorem Canonical.runBr {f : BitVec 23} {taken : Vec → Bool} (hs : Canonical s) : Canonical (runBr s c f taken) :=
  hs.runInsn fun _ ht => .ite ht.jumpTo ht.next4

/-! ### Frame check and checksum -/

theorem Canonical.runChk {f : BitVec 23} {top : Nat} {g : Vec → List Byte → Vec} (hs : Canonical s) : Canonical (runChk s c f top g) :=
  hs.runReg

/-! ### Compares -/

theorem Canonical.runC {f : BitVec 23} {g : (w : Nat) → BitVec w → BitVec w → Bool} (hs : Canonical s) : Canonical (runC s c f g) :=
  hs.runReg

theorem Canonical.runCI {f : BitVec 23} {g : Vec → Vec → Bool} (hs : Canonical s) : Canonical (runCI s c f g) := hs.runReg

/-! ### Events, accesses and stores of contexts -/

theorem Canonical.presentStart (hs : Canonical s) : Canonical (presentStart s c) := by
  unfold Machine.presentStart
  refine .ite hs ?_
  split
  · exact hs
  · exact hs.deliver.activate.reschedOf

theorem Canonical.presentInside (hs : Canonical s) : Canonical (presentInside s c) := by
  unfold Machine.presentInside
  refine .ite hs ?_
  split
  · exact hs
  · exact hs.deliverInside.stepEnds.reschedOf

theorem Canonical.presentEvent (hs : Canonical s) : Canonical (presentEvent s c) := by
  unfold Machine.presentEvent
  refine .ite hs ?_
  split
  · exact hs.presentStart
  · exact hs.presentInside
  · exact hs.presentInside
  · exact hs.presentInside
  · exact hs

theorem Canonical.wakeCtx {got : List (Word × Nat × Option DWord)} (hs : Canonical s) : Canonical (wakeCtx s c got) :=
  hs.modCtx.reschedOf

theorem Canonical.accessDone (hs : Canonical s) : Canonical (accessDone s c) := by
  unfold Machine.accessDone
  split
  · exact .ite hs.wakeCtx.wakeTxn hs
  · refine .ite hs ?_
    split
    · exact hs.entryStores.reschedOf.wakeTxn
    · exact hs
  · exact .ite hs hs.wakeCtx
  · exact hs

theorem Canonical.slotStart (hs : Canonical s) : Canonical (slotStart s t e) := .ite hs (hs.foldl fun _ _ ht => ht.presentEvent).resched

/-! ### Links and exchanges of time -/

theorem Canonical.progressOut (hs : Canonical s) : Canonical (progressOut s t k) := .ite hs.failLink hs
theorem Canonical.trainingLost (hs : Canonical s) : Canonical (trainingLost s t k) := .ite hs.failLink hs
theorem Canonical.resendAgain (hs : Canonical s) : Canonical (resendAgain s t) := hs.foldl fun _ _ ht => ht.sendFlit
theorem Canonical.linkAligned (hs : Canonical s) : Canonical (linkAligned s t k) := hs.modLink.drainLink

theorem Canonical.linkServes {x8 hi : Bool} (hs : Canonical s) : Canonical (linkServes s t k x8 hi) :=
  have ht := (Canonical.ite hs.modRg hs).setLinkState.linkAligned.drainLink.rerouteAll
  .ite ht.resendAgain ht

theorem Canonical.linkReport (hs : Canonical s) : Canonical (linkReport s t k) := .ite hs hs.modRg.modLink.writeFault

theorem Canonical.trainingEnd {res : TrainResult} (hs : Canonical s) : Canonical (trainingEnd s t k res) := by
  unfold Machine.trainingEnd
  refine .ite hs ?_
  split
  · exact .ite hs hs.linkServes
  · exact .ite hs.linkServes hs
  · exact .ite hs.modLink hs.setLinkState.linkReport
  · exact hs.setLinkState.linkReport

theorem Canonical.retryDue (hs : Canonical s) : Canonical (retryDue s t k) := .ite hs.setLinkState hs

theorem Canonical.gapOut {src vc : Nat} (hs : Canonical s) : Canonical (gapOut s t src vc) := by
  unfold Machine.gapOut
  dsimp only
  split
  · exact hs
  · exact .ite hs (hs.writeFault.foldl fun _ _ ht => ht.writeFltP).modEseq.modRg.sendFlit

theorem Canonical.syncDue (hs : Canonical s) : Canonical (syncDue s t) := by
  unfold Machine.syncDue
  refine .ite hs ?_
  split
  · exact hs
  · split
    · exact hs
    · exact hs.modTile.numberFlit.putOnLink

theorem Canonical.syncOut (hs : Canonical s) : Canonical (syncOut s t) := .ite hs.syncFall hs
theorem Canonical.mirrorOut (hs : Canonical s) : Canonical (mirrorOut s t) := .ite hs (hs.foldl fun _ _ ht => ht.askLost)

/-! ### Internal faults and the scrub -/

theorem Canonical.ctxFault (hs : Canonical s) : Canonical (ctxFault s c) := hs.fence.engineFault.reschedOf

theorem Canonical.agentFault {ag : Agent} (hs : Canonical s) : Canonical (agentFault t s ag) := by
  unfold Machine.agentFault
  split
  · exact .ite hs.ctxFault hs
  · split
    · exact hs.hostAnswer
    · exact hs
  · split
    · exact hs.dbgAnswer
    · exact hs

theorem Canonical.waiterFault {w : Waiter} (hs : Canonical s) : Canonical (waiterFault t s w) := by
  unfold Machine.waiterFault
  split
  · exact hs.agentFault
  · exact hs.rxFault
  · exact hs.txFault

theorem Canonical.rxSide {cls outcome : Nat} {ack : Bool} (hs : Canonical s) : Canonical (rxSide s t p cls outcome ack) :=
  .ite (.ite hs.rxFault.setUnack hs.rxFault) hs.rxFault.writeFault

theorem Canonical.eventFault (hs : Canonical s) : Canonical (eventFault s t n) := hs.modSrc

theorem Canonical.snapLost (hs : Canonical s) : Canonical (snapLost s c) :=
  .ite hs.lockEngine (.ite hs hs.fltCount.countCtx.modCtx.endActivation)

theorem Canonical.codeOutcome {s : State} {t : Nat} {x : FaultSite} (hs : Canonical s) : Canonical (codeOutcome s t x) := by
  cases x with
  | engine e c => exact hs.ctxFault
  | rom e c => exact hs.ctxFault
  | snapshot e c => exact hs.fence.snapLost.reschedOf
  | bank l => exact hs.foldl fun _ _ ht => ht.waiterFault
  | hostPort ag => exact hs.foldl fun _ _ ht => ht.agentFault
  | portRx p => exact hs
  | portTx p => exact hs.txFault
  | pair k => exact hs.pairCodeError
  | events n second => exact hs.eventFault
  | sequencer n => exact hs.seqFault
  | pwm p => exact hs.pwmTrip
  | link k => exact hs.sendNak
  | security => exact .ite hs.secFault hs

theorem Canonical.unitError {x : FaultSite} (hs : Canonical s) : Canonical (unitError s t x) := by
  unfold Machine.unitError
  refine .ite hs ?_
  split
  · exact hs.rxSide
  · exact hs.codeOutcome.writeFault
  · exact hs.codeOutcome.writeFault
  · exact hs.codeOutcome.writeFault

theorem Canonical.codeError {x : FaultSite} {xfer : Option Bool} (hs : Canonical s) : Canonical (codeError s t x xfer) := by
  unfold Machine.codeError
  refine .ite hs (.ite (Canonical.ite hs.fltCount hs).writeFault ?_)
  split
  · exact .ite ((Canonical.ite hs.fltCount hs).foldl fun _ _ ht => ht.unitError) (Canonical.ite hs.fltCount hs).unitError
  · exact (Canonical.ite hs.fltCount hs).unitError

theorem Canonical.stallPort (hs : Canonical s) : Canonical (stallPort s p) := hs.rxFault.resetPort

theorem Canonical.resetPairPorts (hs : Canonical s) : Canonical (resetPairPorts s k) :=
  .ite hs.resetPair.stallPort hs.resetPair.stallPort.stallPort

theorem Canonical.stallAt {x : FaultSite} (hs : Canonical s) : Canonical (stallAt s t x) := by
  unfold Machine.stallAt
  refine .ite hs ?_
  split
  · exact hs.ctxFault.writeFault
  · exact hs.ctxFault.writeFault
  · exact hs.ctxFault.writeFault
  · exact (hs.foldl fun _ _ ht => ht.waiterFault).writeFault
  · exact hs.rxSide.resetPort
  · exact hs.txFault.writeFault.stallPort
  · exact hs.writeFault.resetPairPorts
  · exact (Canonical.ite hs.eventFault hs).writeFault
  · exact hs.seqFault.writeFault
  · exact hs.pwmTrip.writeFault
  · exact .ite hs.writeFault.failLink hs.writeFault
  · exact hs.codeOutcome.writeFault
  · exact hs.codeOutcome.writeFault

theorem Canonical.markBad {pos : Nat} (hs : Canonical s) : Canonical (markBad s t pos) := hs.rest
theorem Canonical.mirrorRepair {b : Nat} (hs : Canonical s) : Canonical (mirrorRepair s t b) := hs.markBad.askPartner
theorem Canonical.groupBad {g : Nat} (hs : Canonical s) : Canonical (groupBad s t g) := hs.markGood.modTile.writeFault

theorem Canonical.scrubBad {pos : Nat} (hs : Canonical s) : Canonical (scrubBad s t pos) :=
  .ite hs.bufferLost (.ite hs.markBad.askResend (.ite hs.mirrorRepair (.ite (.ite hs.markBad.askResend hs) (.ite hs.mirrorRepair
    (.ite hs.markGood.ctxBlockLost hs.groupBad)))))

theorem Canonical.strikeCopy {t : Nat} {s : State} {x : CopySite} (hs : Canonical s) : Canonical (strikeCopy t s x) := by
  unfold Machine.strikeCopy
  cases x with
  | staged c i => exact .ite hs.modCtx hs
  | queued p q i => exact hs.modTxQ
  | message m i => exact hs.modMbx
  | replay k lseq => exact hs.modLink
  | held src vc eseq => exact hs.modEseq

theorem Canonical.maskStaged (hs : Canonical s) : Canonical (maskStaged s c) := hs.modCtx.foldl fun _ _ ht => ht.copyMasked
theorem Canonical.maskQueue (hs : Canonical s) : Canonical (maskQueue s p q) := hs.modTxQ.foldl fun _ _ ht => ht.copyMasked
theorem Canonical.maskMailbox (hs : Canonical s) : Canonical (maskMailbox s m) := hs.modMbx.foldl fun _ _ ht => ht.copyMasked

theorem Canonical.maskCopies (hs : Canonical s) : Canonical (maskCopies s t) :=
  ((((hs.foldl fun _ _ ht => ht.maskStaged).foldl fun _ _ ht => ht.foldl fun _ _ hu => hu.maskQueue).foldl fun _ _ ht =>
    ht.maskMailbox).foldl fun _ _ ht => ht.maskReplay).foldl fun _ _ ht => ht.foldl fun _ _ hu => hu.maskHeld

theorem Canonical.scrubNext (hs : Canonical s) : Canonical (scrubNext s t) := .ite hs.setTile hs.setTile.maskCopies.modRg.raiseEdge

theorem Canonical.scrubRead {r : ScrubRead} (hs : Canonical s) : Canonical (scrubRead s t r) :=
  have ht := hs.foldl fun _ _ ht => ht.strikeCopy
  .ite hs (Canonical.ite ht ht.scrubBad).scrubNext

/-! ### Immediates -/

theorem Canonical.runI {f : BitVec 23} {g : Vec → Vec → Vec} (hs : Canonical s) : Canonical (runI s c f g) := hs.runReg

/-! ### Integer operations -/

theorem Canonical.runE {f : BitVec 23} {g : (w : Nat) → BitVec w → BitVec w → BitVec w} (hs : Canonical s) : Canonical (runE s c f g) :=
  hs.runReg

theorem Canonical.runW {f : BitVec 23} {g : Vec → Vec → Vec} (hs : Canonical s) : Canonical (runW s c f g) := hs.runReg
theorem Canonical.runW1 {f : BitVec 23} {g : Vec → Vec} (hs : Canonical s) : Canonical (runW1 s c f g) := hs.runReg

/-! ### Loads and stores -/

theorem Canonical.refuse {cause det : Nat} (hs : Canonical s) : Canonical (refuse s c cause det a) := hs.raise_
theorem Canonical.readLost (hs : Canonical s) : Canonical (readLost s c) := hs.stepEnds.abandon.reschedOf

theorem Canonical.loadThen {s : State} {c a n : Nat} {b : Option Nat} {k : State → Nat → Option Nat → State} (hs : Canonical s)
    (hk : ∀ u v w, Canonical u → Canonical (k u v w)) : Canonical (loadThen s c a n b k) := by
  unfold Machine.loadThen
  split
  · next he => exact hk _ _ _ (hs.ctxRead.of_fst he).watchData
  · next he => exact (hs.ctxRead.of_fst he).refuse
  · next he => exact (hs.ctxRead.of_fst he).readLost
  · next he => exact hs.ctxRead.of_fst he

theorem Canonical.storeThen {s : State} {c a n v : Nat} {b : Option Nat} {k : State → Option Nat → State} (hs : Canonical s)
    (hk : ∀ u w, Canonical u → Canonical (k u w)) : Canonical (storeThen s c a n v b k) := by
  unfold Machine.storeThen
  split
  · next he => exact hk _ _ (hs.ctxStore.of_fst he).watchData
  · next he => exact (hs.ctxStore.of_fst he).refuse
  · next he => exact hs.ctxStore.of_fst he

theorem Canonical.misaligned {wr : Bool} (hs : Canonical s) : Canonical (misaligned s c a wr) := hs.countDeny.refuse

theorem Canonical.loadEnd {f : BitVec 23} {w : Vec} {b : Option Nat} (hs : Canonical s) : Canonical (loadEnd s c f w b) :=
  hs.setV.next4.breakAfter

theorem Canonical.runLoad {f : BitVec 23} {ext : Nat → Vec} (hs : Canonical s) : Canonical (runLoad s c f n ext) :=
  hs.runInsn fun _ ht => ht.loadThen (fun _ _ _ hu => hu.loadEnd)

theorem Canonical.runStore {f : BitVec 23} (hs : Canonical s) : Canonical (runStore s c f n) :=
  hs.runInsn fun _ ht => ht.storeThen (fun _ _ hu => hu.next4.breakAfter)

theorem Canonical.waits2 {s : State} {c a v : Nat} (hs : Canonical s) : SomeKept (waits2 s c a v) :=
  .ite .none (.ite (.some hs.slotWait) (.ite (.some hs.countCtx.stallIn) (.ite (.some hs.stallIn) .none)))

/-! ### Block repeats -/

theorem Canonical.repFlush {b : RepBuf} (hs : Canonical s) : Canonical (repFlush s c b) := by
  unfold Machine.repFlush
  split
  · exact hs
  · exact .ite hs.modCtx hs.modCtx

theorem Canonical.repRead {b : RepBuf} {h : Option (Nat × Nat)} (hs : Canonical s) : Canonical (repRead s c b h a n).1 := by
  unfold Machine.repRead
  dsimp only
  split
  · exact hs
  · split
    · next he => exact .fst_ite (hs.ctxRead.of_fst he) (hs.ctxRead.of_fst he)
    · next he => exact hs.ctxRead.of_fst he
    · next he => exact hs.ctxRead.of_fst he
    · next he => exact hs.ctxRead.of_fst he

theorem Canonical.repCheck {v : Nat} (hs : Canonical s) : Canonical (repCheck s c a n v).1 := by
  unfold Machine.repCheck
  refine .fst_ite ?_ ?_
  · split
    · exact hs
    · exact hs.countDeny.pair
  · split
    · exact hs
    · next he => exact hs.busWrite.of_fst he

theorem Canonical.repWrite {b : RepBuf} {v : Nat} (hs : Canonical s) : Canonical (repWrite s c b a n v).1 := by
  unfold Machine.repWrite
  refine .fst_ite ?_ ?_
  · split
    · next he => exact hs.repFlush.ctxStore.of_fst he
    · next he => exact hs.repFlush.ctxStore.of_fst he
    · next he => exact hs.repFlush.ctxStore.of_fst he
  · split
    · next he =>
        split
        · exact hs.repCheck.of_fst he
        · exact
            have ht := (hs.repCheck.of_fst he).repFlush
            .fst_ite ht (.fst_ite ht.slotWait.pair (.fst_ite ht.countCtx.stallIn.pair (.fst_ite ht.stallIn.pair ht)))
    · next he => exact hs.repCheck.of_fst he

theorem Canonical.setLow32 {v : Nat} (hs : Canonical s) : Canonical (setLow32 s c n v) := hs.setV

theorem Canonical.repAdvance {src dst : Bool} (hs : Canonical s) : Canonical (repAdvance s c n src dst) := by
  unfold Machine.repAdvance
  exact (Canonical.ite (Canonical.ite hs.setLow32 hs).setLow32 (.ite hs.setLow32 hs)).setLow32.modCtx

theorem Canonical.repWatch {b : RepBuf} {rd : Bool} {v : Nat} (hs : Canonical s) : Canonical (repWatch s c b rd a n v).1 := hs.watchData

theorem Canonical.repLoad {s : State} {c : Nat} {b : RepBuf} {reg n : Nat} {k : State → RepBuf → Nat → State × RepBuf × EStep}
    (hs : Canonical s) (hk : ∀ u x v, Canonical u → Canonical (k u x v).1) : Canonical (repLoad s c b reg n k).1 := by
  unfold Machine.repLoad
  dsimp only
  split
  · next he => exact hk _ _ _ (hs.repRead.of_fst he).repWatch
  · next he => exact hs.repRead.of_fst he
  · next he => exact hs.repRead.of_fst he
  · next he => exact hs.repRead.of_fst he

theorem Canonical.repStore {b : RepBuf} {v : Nat} {src : Bool} (hs : Canonical s) : Canonical (repStore s c b n v src).1 := by
  unfold Machine.repStore
  dsimp only
  split
  · next he => exact (hs.repWrite.of_fst he).repWatch.repAdvance.pair
  · next he => exact hs.repWrite.of_fst he
  · next he => exact hs.repWrite.of_fst he
  · next he => exact hs.repWrite.of_fst he

theorem Canonical.repPause {b : RepBuf} (hs : Canonical s) : Canonical (repPause s c b) :=
  hs.repFlush.modCtx.stepEnds.reschedOf.breakAfter

theorem Canonical.repEnd {b : RepBuf} (hs : Canonical s) : Canonical (repEnd s c b) := hs.repFlush.modCtx.next4.breakAfter
theorem Canonical.keepRep {b : RepBuf} (hs : Canonical s) : Canonical (keepRep s c b) := hs.modCtx

theorem Canonical.repLoop {c k : Nat} {f : BitVec 23} {el : State → RepBuf → State × RepBuf × EStep} {fin : State → State} {s : State}
    {b : RepBuf} (hs : Canonical s) (hel : ∀ u x, Canonical u → Canonical (el u x).1) (hfin : ∀ u, Canonical u → Canonical (fin u)) :
    Canonical (repLoop c f el fin k s b) := by
  induction k generalizing s b with
  | zero => exact hs.repPause
  | succ k ih =>
    have hstep := hel _ b (hs.modCtx (k := c) (g := fun x => { x with rep := b }))
    unfold Machine.repLoop
    split
    · next he =>
      have hu := hstep.of_fst he
      exact .ite (hfin _ hu).repEnd (.ite hu.repPause (ih hu))
    · next he => exact (hstep.of_fst he).setV.repEnd
    · next he => exact (hstep.of_fst he).repFlush.refuse
    · next he => exact (hstep.of_fst he).repFlush.readLost
    · next he => exact (hstep.of_fst he).keepRep

theorem Canonical.runRep {s : State} {c : Nat} {f : BitVec 23} {n : Nat} {ok : Bool} {zero : State → State}
    {el : State → RepBuf → State × RepBuf × EStep} {fin : State → State} (hs : Canonical s) (hzero : ∀ u, Canonical u → Canonical (zero u))
    (hel : ∀ u x, Canonical u → Canonical (el u x).1) (hfin : ∀ u, Canonical u → Canonical (fin u)) :
    Canonical (runRep s c f n ok zero el fin) :=
  hs.runInsn fun _ ht => .ite (hzero _ ht).repEnd (ht.modCtx.repLoop hel hfin)

theorem Canonical.clearHigh {f : BitVec 23} (hs : Canonical s) : Canonical (clearHigh s c f) := hs.setV

/-! ### Shifts and lanes -/

theorem Canonical.runSh {f : BitVec 23} {g : (w : Nat) → BitVec w → Nat → BitVec w} (hs : Canonical s) : Canonical (runSh s c f g) :=
  hs.runReg

theorem Canonical.runShI {f : BitVec 23} {g : (w : Nat) → BitVec w → Nat → BitVec w} (hs : Canonical s) : Canonical (runShI s c f g) :=
  hs.runReg

theorem Canonical.runE1 {f : BitVec 23} {g : (w : Nat) → BitVec w → BitVec w} (hs : Canonical s) : Canonical (runE1 s c f g) := hs.runReg

/-! ### Microcode -/

theorem Canonical.microEnd {m : Micro} {cause det : Nat} {addr : Word} {epc : BitVec 20} (hs : Canonical s) :
    Canonical (microEnd s c m cause det addr epc) :=
  hs.modCtx.raiseAt

theorem Canonical.issueHeld {m : Micro} (hs : Canonical s) : Canonical (issueHeld s c m) := hs.foldl fun _ _ ht => ht.modCtx

theorem Canonical.uAccess {m : Micro} {w : UW} (hs : Canonical s) : Canonical (uAccess s c m w).1 := by
  unfold Machine.uAccess
  dsimp only
  split
  · split
    · next he => exact (hs.ctxReadAs.of_fst he).watchData.modCtx.pair
    · next he => exact hs.ctxReadAs.of_fst he
    · next he => exact hs.ctxReadAs.of_fst he
    · next he => exact hs.ctxReadAs.of_fst he
  · split
    · next he => exact .fst_ite (hs.repCheck.of_fst he) (hs.repCheck.of_fst he).watchData.pair
    · next he => exact hs.repCheck.of_fst he
  · exact hs

theorem Canonical.uWrite {s t : State} {c : Nat} {m m' : Micro} {w : UW} {rx : Nat} {r : Vec} (hs : Canonical s)
    (h : uWrite s c m w rx r = some (t, m')) : Canonical t := by
  have hset (n : Nat) (x : Vec) : Canonical (Machine.setV s c n x) := hs.setV
  unfold Machine.uWrite at h
  dsimp only at h
  grind

theorem Canonical.uSpecial {m : Micro} {w : UW} (hs : Canonical s) : Canonical (uSpecial s c m w).1 := by
  unfold Machine.uSpecial
  dsimp only
  split
  · exact .fst_ite hs (.fst_ite hs hs.issueHeld.modCtx.pair)
  · exact hs.modCtx.pair
  · exact hs.modCtx.pair
  · exact .fst_ite hs (.fst_ite hs hs.issueHeld.fence.pair)
  · exact hs
  · exact hs
  · exact hs

/-- A microword without an operation writes nothing. -/
theorem Canonical.uWritten {s t : State} {c : Nat} {m m' m'' : Micro} {w : UW} {rx : Nat} {r : Vec} (hs : Canonical s)
    (h : (if uAlu w = 0 then some (s, m) else Machine.uWrite s c m' w rx r) = some (t, m'')) : Canonical t := by
  split at h
  · injection h with h
    exact hs.of_fst h
  · exact hs.uWrite h

theorem Canonical.uExec {s : State} {c : Nat} {m : Micro} {w : UW} (hs : Canonical s) : Canonical (uExec s c m w).1 := by
  have hstart : Canonical (if uAlu w = 0 then { s with fresh := s.fresh + 1 } else s) := .ite hs.rest hs
  unfold Machine.uExec
  dsimp only
  refine .fst_ite hs ?_
  split
  · next he => exact hstart.uAccess.of_fst he
  · next he =>
    have hread := hstart.uAccess.of_fst he
    split
    · exact hs
    · next hf =>
      have hwritten : Canonical _ := hread.uWritten hf
      split
      · exact hwritten
      · exact hs
      · next hg =>
        have hdone := hwritten.uSpecial.of_fst hg
        split
        · exact hdone
        · exact .fst_ite hdone (.fst_ite hdone hdone)

theorem Canonical.microStall {m : Micro} {wt : Wait} (hs : Canonical s) : Canonical (microStall s c m wt) := hs.modCtx.stallIn

theorem Canonical.microHold {m held : Micro} (hs : Canonical s) : Canonical (microHold s c m held) :=
  .ite hs.countCtx.microStall (.ite hs.microStall hs.modCtx.slotWait)

theorem Canonical.microOver {old : State} {m pre : Micro} (hs : Canonical s) (ht : Canonical old) :
    Canonical (microOver s c m pre old) :=
  .ite hs.microEnd (.ite ht.microHold hs.issueHeld.modCtx.finish.breakAfter)

theorem Canonical.microExc {old : State} {m : Micro} {cause det : Nat} {addr : Word} {epc : BitVec 20} (hs : Canonical s) :
    Canonical (microExc s c m cause det addr epc old) :=
  hs.modCtx.microEnd

theorem Canonical.microRun {c k : Nat} {s : State} {m : Micro} (hs : Canonical s) : Canonical (microRun c k s m) := by
  induction k generalizing s m with
  | zero => exact hs.modCtx.reschedOf
  | succ k ih =>
    unfold Machine.microRun
    dsimp only
    refine .ite hs.askResend.microStall (.ite hs.microEnd (.ite hs.microEnd ?_))
    split
    · next he => exact ih (hs.uExec.of_fst he)
    · next he => exact (hs.uExec.of_fst he).modCtx.reschedOf
    · next he => exact (hs.uExec.of_fst he).modCtx.stepEnds.reschedOf.breakAfter
    · next he => exact (hs.uExec.of_fst he).microOver hs
    · next he => exact (hs.uExec.of_fst he).microExc
    · next he => exact (hs.uExec.of_fst he).modCtx.readLost
    · next he => exact (hs.uExec.of_fst he).modCtx
    · exact hs.microHold

/-! ### Paired words -/

theorem Canonical.putSlot {x : Slot} {w : Vec} (hs : Canonical s) : Canonical (putSlot s c x w) := .ite hs.setV hs

theorem Canonical.pairEndAll {a b : Slot} {loaded : Nat} (hs : Canonical s) : Canonical (pairEndAll s c a b loaded) :=
  .ite hs.putSlot.putSlot.jumpTo hs.putSlot.putSlot.next4

theorem Canonical.runPair {a b : Slot} (hs : Canonical s) : Canonical (runPair s c a b) := by
  unfold Machine.runPair
  split
  · exact hs.pairEndAll
  · exact .ite (hs.loadThen (fun _ _ _ ht => ht.pairEndAll.breakAfter)) (hs.storeThen (fun _ _ ht => ht.pairEndAll.breakAfter))

/-! ### The start -/

theorem Canonical.setPhase (hs : Canonical s) : Canonical (setPhase s n) := hs.modRg

theorem Canonical.startDomain {env : StartEnv} {d : Nat} (hs : Canonical s) : Canonical (startDomain env t s d) :=
  .ite hs.modTile.modTile.bumpGen hs.modTile

theorem Canonical.startPower {env : StartEnv} (hs : Canonical s) : Canonical (startPower s env) :=
  hs.foldl fun _ _ ht => ht.foldl fun _ _ hu => hu.startDomain

theorem Canonical.startLink {env : StartEnv} (hs : Canonical s) : Canonical (startLink env t s k) := by
  unfold Machine.startLink
  dsimp only
  refine .ite hs ?_
  split
  · exact hs.modLink.raiseEdge.modLink.raiseEdge
  · exact hs.modLink.raiseEdge

theorem Canonical.startPeers (hs : Canonical s) : Canonical (startPeers s t) := hs.foldl fun _ _ ht => ht.numberFlit.carryHop.modTile

theorem Canonical.startLinks {env : StartEnv} (hs : Canonical s) : Canonical (startLinks s env) :=
  (hs.foldl fun _ _ ht => ht.foldl fun _ _ hu => hu.startLink).foldl fun _ _ ht => ht.startPeers

theorem Canonical.startUp {env : StartEnv} (hs : Canonical s) : Canonical (startUp s env) := by
  unfold Machine.startUp
  split
  · exact .ite hs.rest.startPower.startLinks.setPhase hs.rest.startPower.startLinks.setPhase.setRg
  · exact hs.rest.startPower.startLinks.setPhase

theorem Canonical.startRefused {r0 r1 : Nat} (hs : Canonical s) : Canonical (startRefused s r0 r1) := hs.modRg.modRg.rest

theorem Canonical.startKeys {root : BitVec 256} {key : List Byte} (hs : Canonical s) : Canonical (startKeys s root key) :=
  hs.modSec.deliverKeys.foldl fun _ _ ht => ht.foldl fun _ _ hu => hu.setRg

theorem Canonical.startDatum {b : List Byte} (hs : Canonical s) : Canonical (startDatum b s t) := hs.setRg.setRg

theorem Canonical.startTile {env : StartEnv} (hs : Canonical s) : Canonical (startTile env s t) :=
  have ht := Canonical.ite hs.modTile.modRg hs.modTile.raiseEdge.writeFault
  .ite hs (.ite ht ht.modRg.writeFault)

theorem Canonical.startFn {d : FnDesc} (hs : Canonical s) : Canonical (startFn s f d) := hs.ctxsGone.modFn

theorem Canonical.startAccept {env : StartEnv} {slot : Bool} {r0 : Nat} (hs : Canonical s) : Canonical (startAccept s env slot r0) := by
  unfold Machine.startAccept
  refine ((((((Canonical.startKeys ?_).foldl fun _ _ ht => ht.setRg).foldl fun _ _ ht => ht.startDatum).foldl fun _ _ ht =>
    ht.startDomain).foldl fun _ _ ht => ht.startTile).foldl fun _ _ ht => ht.startFn).measure.setPhase
  split
  · exact hs.rest.modRg.setRg
  · exact hs.rest.modRg

theorem Canonical.loadSec {p : Nat} {e : ParcelEntry} {r : State × Loads} {x : SecEnt} (hr : Canonical r.1) :
    Canonical (loadSec p e r x).1 := by
  unfold Machine.loadSec
  split
  · exact Canonical.loadOne hr
  · exact hr

theorem Canonical.startParcel {env : StartEnv} {r : State × Loads} {e : Nat × ParcelEntry} (hr : Canonical r.1) :
    Canonical (startParcel env r e).1 :=
  .fst_ite hr (Canonical.fst_foldl hr.dirMeasure fun _ _ hq => Canonical.loadSec hq).pair

theorem Canonical.startDecode {env : StartEnv} {r : State × Loads} {e : Nat × ParcelEntry} (hr : Canonical r.1) :
    Canonical (startDecode env r e).1 :=
  .fst_ite hr (.fst_foldl hr fun _ _ hq => Canonical.loadSec hq)

theorem Canonical.setPartial (hs : Canonical s) : Canonical (setPartial s) := hs.modRg

theorem Canonical.startLoads {env : StartEnv} (hs : Canonical s) : Canonical (startLoads s env) := by
  unfold Machine.startLoads
  refine (Canonical.fst_foldl (.fst_foldl hs (fun _ _ ht => ht.startParcel)) (fun _ _ ht => ht.startDecode)).setPhase.foldl fun _ _ ht
    => ?_
  split
  · exact .ite ht.fnLoadEnd.setPartial ht.fnLoadEnd
  · exact ht.fnLoadEnd

theorem Canonical.startAuto (hs : Canonical s) : Canonical (startAuto s) := by
  unfold Machine.startAuto
  refine hs.setPhase.foldl fun _ _ ht => .ite ?_ ht
  split
  · exact ht.fnAccept
  · exact ht.loadRefused.setPartial

theorem Canonical.startRun {env : StartEnv} (hs : Canonical s) : Canonical (startRun s env) :=
  .ite hs.startUp.startAccept.startLoads.startAuto (.ite hs.startUp.startAccept.startLoads.startAuto hs.startUp.startRefused)

/-! ### System instructions -/

theorem Canonical.ctxKick (hs : Canonical s) : Canonical (ctxKick s c) := .ite hs.wdKick hs.sendFlit

theorem Canonical.afterIe (hs : Canonical s) : Canonical (afterIe s c) := by
  unfold Machine.afterIe
  refine .ite ?_ hs
  split
  · exact hs.deliverInside
  · exact hs

theorem Canonical.mtsPut {sel : Nat} {v : Word} (hs : Canonical s) : Canonical (mtsPut s c sel v) := by
  unfold Machine.mtsPut
  split
  · exact hs.modCtx.next4.afterIe
  · exact .ite hs.raise_ (.ite hs.modCtx.next4 hs.countDeny.raise_)
  · exact hs.ctxKick.next4
  · exact hs.raise_

theorem Canonical.refuse0 {det : Nat} (hs : Canonical s) : Canonical (refuse0 s c det) := hs.countDeny.raise_

theorem Canonical.runSchr {f : BitVec 23} (hs : Canonical s) : Canonical (runSchr s c f) := by
  unfold Machine.runSchr
  refine hs.runInsn fun _ ht => ?_
  split
  · exact ht.refuse0
  · refine .ite ht.refuse0 (.ite ht.setV.next4 ?_)
    split
    · next he => exact (ht.schrTake.of_fst he).setV.next4
    · next he => exact (ht.schrTake.of_fst he).stallIn

/-! ### The idle step -/

theorem Canonical.mirrorStatus (hs : Canonical s) : Canonical (mirrorStatus s t) := by
  unfold Machine.mirrorStatus
  refine .ite hs ?_
  split
  · next he => exact (hs.sendFlit.of_fst he).modTile
  · exact hs

theorem Canonical.idle (hs : Canonical s) : Canonical (idle s) :=
  .ite hs (((hs.foldl fun _ _ ht => ht.tickTile).foldl fun _ _ ht => ht.leaveDone).foldl fun _ _ ht => ht.mirrorStatus)

/-! ### Commands -/

theorem Canonical.execSt128 {f : BitVec 23} (hs : Canonical s) : Kept (execSt128 c f s) :=
  .next <| hs.runInsn fun _ ht => .ite ht.misaligned <| by
    split
    · next he => exact ht.waits2 _ he
    · exact ht.storeThen fun _ _ hu => hu.storeThen fun _ _ hv => hv.next4.breakAfter

theorem Canonical.execMfs {f : BitVec 23} (hs : Canonical s) : Kept (execMfs c f s) :=
  .next <| hs.runInsn fun _ ht => by
    split
    · exact ht.setV.next4
    · exact ht.raise_

theorem Canonical.execPsqw {f : BitVec 23} (hs : Canonical s) : Kept (execPsqw c f s) :=
  .next <| hs.runInsn fun _ ht => by
    split
    · exact ht.seqPush.setV.next4
    · exact ht.refuse0

theorem Canonical.execPsqr {f : BitVec 23} (hs : Canonical s) : Kept (execPsqr c f s) :=
  .next <| hs.runInsn fun _ ht => by
    split
    · split
      · next he => exact (ht.seqPop.of_fst he).setV.next4
      · next he => exact (ht.seqPop.of_fst he).setV.next4
    · exact ht.refuse0

theorem Canonical.execSchw {f : BitVec 23} (hs : Canonical s) : Kept (execSchw c f s) :=
  .next <| hs.runInsn fun _ ht => by
    split
    · exact ht.refuse0
    · exact .ite ht.refuse0 ht.schwPut.setV.next4

theorem Canonical.execPairedWord {w : BitVec 31} (hs : Canonical s) : Kept (execPairedWord c w s) :=
  .next <| hs.runInsn fun _ ht => by
    split
    · exact ht.runPair
    · exact ht.raise_

theorem Canonical.execCustomerInstruction {op : BitVec 5} {f : CustomerWord} (hs : Canonical s) :
    Kept (execCustomerInstruction c op f s) :=
  .next <| by
    split
    · exact .ite hs.microRun hs
    · exact hs.runInsn fun _ ht => .ite ht.askResend.stallIn (.ite ht.raise_ (.ite ht.raise_ ht.microRun))

/-- Every command keeps the canonical form (00 R8). -/
theorem Canonical.exec (hs : Canonical s) : (i : Instr) → Kept (exec i s)
  | .clusterReset => .next hs.clusterReset
  | .startSequence _ => .next (.ite hs hs.startRun)
  | .startComplete => .next (.ite hs.modRg.setPhase.setRg.raiseEdge hs)
  | .registerWrite _ _ _ | .tmrDadjWrite _ _ _ | .paceCtlWrite _ _ _ | .rstmin _ _ | .nvmPortRelease _ | .nvmReadPage _ _
  | .nvmProgramPage _ _ | .nvmEraseSector _ _ | .chal _ | .unlockSubmit _ _ | .relock _ | .sealRequest _ _ | .ctxSwWrite _ _ _
  | .ctxTsbpWrite _ _ _ | .ctxVdata3Write _ _ _ | .doorbell _ _ _ | .transmitPost _ _ _ | .flush _ _ | .lostBlockClear _ _ _
  | .unack _ _ | .mailboxSend _ _ _ | .mailboxSendEnd _ _ _ | .mailboxAck _ _ _ | .rrst _ _ | .lockRelease _ _ _
  | .lockForce _ _ _ | .sequencerStart _ _ | .sequencerStop _ _ | .flushtx _ _ | .flushrx _ _ | .sequencerPush _ _ _
  | .sequencerFreeze _ _ _ | .timerCompareWrite _ _ _ | .timerCompareWriteImmediate _ _ _ | .force _ _ | .tripclr _ _
  | .pwmCommit _ _ | .pwmStart _ _ | .pwmStop _ _ | .pwmPeriodWrite _ _ _ | .halt _ _ _ | .resume _ _ _ | .step _ _ _
  | .powerDown _ _ _ | .powerUp _ _ _ => .next hs.agentWrite
  | .readClear _ _ | .nvmPortAcquire _ | .lockRead _ _ | .sequencerPop _ _ | .captureSnapshot _ _ => .next hs.agentRead
  | .hostRead _ _ _ _ | .hostWrite _ _ _ _ _ => .next hs.hostRequest
  | .hostResponseTaken => .next hs.hostTaken
  | .hostResponseSlow => .next hs.hostSlow
  | .referenceLost _ | .referenceOutOfRange _ => .next (.ite hs.enterHold hs)
  | .referenceResumed _ => .next (.ite hs.leaveHold hs)
  | .paceWindowEnd _ _ _ _ _ => .next (.ite hs.paceEnd hs)
  | .nvmCommandIssue => .next hs.nvmIssue
  | .nvmCommandDone => .next hs.nvmDone
  | .nvmCommandTimeout => .next hs.nvmTimeout
  | .functionEnable _ _ | .functionDisable _ _ | .functionReload _ _ _ | .functionUnload _ _ | .grantChange _ _ _ | .kick _ _
  | .watchdogConfigWrite _ _ _ | .exceptionRecordClear _ _ _ | .pset _ _ _ | .pclr _ _ _ | .eventHostComplete _ _ _ _
  | .flowConsume _ _ _ _ | .retrain _ _ _ | .faultRecordClear _ _ _ | .sequencerProgramWrite _ _ _ _ | .counterRelease _ _ _
  | .counterWrite _ _ _ _ | .snapshotNow _ _ _ | .snapshotArm _ _ _ | .samplerRelease _ _ _ | .sampleRemove _ _ _ _ =>
    .next (.ite hs.agentWrite hs)
  | .reloadStart => .next hs.reloadBegin
  | .reloadComplete _ => .next hs.reloadEnd
  | .unloadZeroFillComplete _ => .next hs.zeroDone
  | .drainComplete _ => .next hs.drainDone
  | .drainLimitExpired _ => .next hs.drainForce
  | .keyPortAcknowledge _ _ => .next hs.kpAck
  | .keyPortTimeout => .next hs.kpTimeout
  | .keyPortTestAssert => .next hs.clusterReset.rest
  | .keyPortTestDeassert => .next (.ite hs.clusterReset.rest hs)
  | .challengeReady => .next hs.chalReady
  | .challengeExpired => .next hs.chalExpired
  | .unlockVerifyComplete => .next hs.unlockVerified
  | .unlockLifeExpired => .next hs.lifeExpired
  | .unlockWaitElapsed => .next hs.waitElapsed
  | .sealComplete => .next hs.sealDone
  | .tagGroupRebuild _ _ => .next hs.groupRebuilt
  | .eventPresentation _ => .next hs.presentEvent
  | .accessComplete _ => .next hs.accessDone
  | .storeComplete _ => .next hs.storeDone
  | .commitReleaseEntry _ => .next hs.releaseOne
  | .add _ _ | .sub _ _ | .mul _ _ | .mulhu _ _ | .min _ _ | .max _ _ | .minu _ _ | .maxu _ _ | .adds _ _ | .subs _ _ => .next hs.runE
  | .and _ _ | .or _ _ | .xor _ _ | .andn _ _ => .next hs.runW
  | .not _ _ | .mov _ _ => .next hs.runW1
  | .addi _ _ | .andi _ _ | .ori _ _ | .xori _ _ | .muli _ _ => .next hs.runI
  | .li _ _ | .liu _ _ | .lget _ _ | .lput _ _ | .dup _ _ | .perm _ _ | .cany _ _ | .rddat _ _ => .next hs.runReg
  | .shl _ _ | .shr _ _ | .sar _ _ | .rol _ _ => .next hs.runSh
  | .shli _ _ | .shri _ _ | .sari _ _ | .roli _ _ => .next hs.runShI
  | .bswap _ _ | .clz _ _ | .popc _ _ => .next hs.runE1
  | .ceq _ _ | .cne _ _ | .clt _ _ | .cle _ _ | .cltu _ _ | .cleu _ _ => .next hs.runC
  | .ceqi _ _ | .cnei _ _ | .clti _ _ | .cltui _ _ => .next hs.runCI
  | .ld8 _ _ | .ld16 _ _ | .ld32 _ _ | .ld64 _ _ | .lds8 _ _ | .lds16 _ _ | .lds32 _ _ => .next hs.runLoad
  | .ld128 _ _ =>
    .next (hs.runInsn fun _ ht => .ite ht.misaligned (ht.loadThen fun _ _ _ hu => hu.loadThen fun _ _ _ hv => hv.loadEnd))
  | .st8 _ _ | .st16 _ _ | .st32 _ _ | .st64 _ _ => .next hs.runStore
  | .bz _ _ | .bnz _ _ => .next hs.runBr
  | .j _ _ | .jr _ _ => .next (hs.runInsn fun _ ht => ht.jumpTo)
  | .call _ _ | .callr _ _ => .next (hs.runInsn fun _ ht => ht.setV.jumpTo)
  | .rcmp _ _ _ =>
    .next (hs.runRep (fun _ ht => ht.setV) (fun _ _ ht => ht.repLoad fun _ _ _ hu => hu.repLoad fun _ _ _ hv => .fst_ite hv hv.repAdvance.pair)
      fun _ ht => ht.setV)
  | .rscan _ _ _ =>
    .next (hs.runRep (fun _ ht => ht.setV) (fun _ _ ht => ht.repLoad fun _ _ _ hu => .fst_ite hu hu.repAdvance.pair) fun _ ht => ht.setV)
  | .commit _ _ | .wait _ _ => .next (hs.runInsn fun _ ht => ht.doCommit)
  | .fence _ _ => .next (hs.runInsn fun _ ht => ht.fence.next4)
  | .trap _ _ => .next (hs.runInsn fun _ ht => ht.raiseAt)
  | .brk _ _ => .next (hs.runInsn fun _ ht => .ite ht.modCtx.haltEffect ht.raise_)
  | .rfe _ _ => .next (hs.runInsn fun _ ht => .ite ht.doRfe ht.raise_)
  | .mtsSw _ _ | .mtsTsbp _ _ | .wdkick _ _ => .next (hs.runInsn fun _ ht => ht.mtsPut)
  | .schr _ _ | .schrStatus _ _ => .next hs.runSchr
  | .crc32 _ _ | .crc16 _ _ | .csum16 _ _ => .next hs.runChk
  | .reservedOpcode _ _ _ => .next (hs.runInsn fun _ ht => ht.raise_)
  | .watchdogExpired _ => .next hs.wdExpire
  | .eventClaim _ _ _ | .counterClaim _ _ _ | .samplerClaim _ _ _ => .next (.ite hs.agentRead hs)
  | .frameReceiveStart _ _ => .next hs.rxStart
  | .frameReceiveEnd _ _ => .next hs.rxEnd
  | .jabber _ => .next hs.rxJabber
  | .transmitFrameStart _ => .next hs.txStart
  | .transmitFrameEnd _ => .next hs.txEnd
  | .linkUp _ _ => .next (.ite hs.phyUp hs)
  | .linkDown _ _ => .next (.ite hs.phyDown hs)
  | .pauseExpired _ _ => .next hs.pauseOver
  | .pauseRefreshDue _ => .next hs.refreshDue
  | .pauseWatchdog _ _ => .next hs.pauseWd
  | .rateWindowEnd _ => .next (.ite hs.rateEnd hs)
  | .chunkComplete _ => .next hs.chunkDone
  | .chunkRelease _ => .next hs.chunkOut
  | .schussEgressStart _ => .next hs.egressStart
  | .idleFlit _ _ _ | .writeFlit _ _ _ | .readFlit _ _ _ | .rdataFlit _ _ _ | .doorbellFlit _ _ _ | .mailboxFlit _ _ _
  | .kickFlit _ _ _ | .mirwrFlit _ _ _ | .mirreqFlit _ _ _ | .mirdatFlit _ _ _ | .syncFlit _ _ _ | .ctrlFlit _ _ _
  | .nakFlit _ _ _ => .next hs.arriveAs
  | .flitCrcError _ _ _ _ => .next hs.crcError
  | .linkProgressTimeout _ _ => .next hs.progressOut
  | .linkTrainingLoss _ _ => .next hs.trainingLost
  | .linkTrainingEnd _ _ _ => .next hs.trainingEnd
  | .linkRetryTimer _ _ => .next hs.retryDue
  | .eseqGapTimeout _ _ _ => .next hs.gapOut
  | .syncExchangeDue _ => .next hs.syncDue
  | .syncTimeout _ => .next hs.syncOut
  | .mirrorRequestTimeout _ => .next hs.mirrorOut
  | .dualRailCodeError _ _ _ => .next hs.codeError
  | .handshakeStall _ _ => .next hs.stallAt
  | .patrolScrubRead _ _ => .next hs.scrubRead
  | .sequencerBoundary _ _ => .next hs.seqBoundary
  | .sequencerStallLimit _ => .next hs.seqSlim
  | .timerCompareMatch _ => .next hs.cmpDue
  | .captureEdge _ _ => .next hs.capEdge
  | .blankingWindowEnd _ => .next hs.blankEnd
  | .carrierZero _ => .next hs.pwmZero
  | .carrierTop _ => .next hs.pwmTop
  | .referenceChange _ => .next hs.pwmRef
  | .deadTimeEnd _ _ => .next hs.pwmTurnOn
  | .trip _ _ => .next (.ite hs.tripInput hs)
  | .tapReset => .next hs.tapReset
  | .irUpdate _ => .next hs.selectIr
  | .daccCapture | .dstatUpdate _ => .next (.ite hs.modDbg hs)
  | .debugRead _ _ | .debugWrite _ _ => .next hs.dbgStart
  | .debugAccessComplete => .next hs.dbgDone
  | .haltTakesEffect _ => .next hs.haltEffect
  | .snapshotDue _ _ => .next hs.snapDue
  | .remoteWakeRequest _ => .next hs.remoteWake
  | .powerAcknowledge _ _ _ => .next (.ite hs.powerAck hs)
  | .powerAckTimeout _ _ => .next hs.ackTimeout
  | .wakeComplete _ _ _ => .next hs.wakeDone
  | .parcelSlotStart _ _ => .next hs.slotStart
  | .malformedFlit _ _ _ => .next hs.malformed
  | .rmov _ _ _ => .next (hs.runRep (fun _ ht => ht) (fun _ _ ht => ht.repLoad fun _ _ _ hu => hu.repStore) fun _ ht => ht)
  | .rfill _ _ _ => .next (hs.runRep (fun _ ht => ht) (fun _ _ ht => ht.repStore) fun _ ht => ht)
  | .rcrc _ _ _ | .rsum _ _ _ =>
    .next (hs.runRep (fun _ ht => ht) (fun _ _ ht => ht.repLoad fun _ _ _ hu => hu.setLow32.repAdvance.pair) fun _ ht => ht.clearHigh)
  | .st128 _ _ => hs.execSt128
  | .mfs _ _ => hs.execMfs
  | .psqw _ _ => hs.execPsqw
  | .psqr _ _ => hs.execPsqr
  | .schw _ _ => hs.execSchw
  | .pairedWord _ _ => hs.execPairedWord
  | .customerInstruction _ _ _ => hs.execCustomerInstruction

/-- Every step keeps the canonical form, whether a command waits or none does. -/
theorem Canonical.step (hs : Canonical s) : Kept (step s) := by
  unfold Machine.step
  split
  · exact .next hs.idle
  · exact hs.rest.exec _

end Sys2Proof.Machine

namespace Sys2Proof.Machine

/-- Settles O2: every function of the model that answers a state keeps the canonical form, from the writers of the tables and memories up to
`exec` and `idle`. -/
theorem canonicalFormKeptByEveryStep : Obligations.CanonicalFormKeptByEveryStep := by
  unfold Obligations.CanonicalFormKeptByEveryStep
  intro s s' hs hstep
  exact hs.step s' hstep

end Sys2Proof.Machine

end

section
/-! ## Fields and bits of a word (00 R10) -/

namespace Sys2Proof.Machine

/-- A field written shows the value's bits in its place and leaves the other bits as they were. -/
theorem bit_setFld {n : Nat} (w : BitVec n) (lo len v j : Nat) (hj : j < n) :
    bit (setFld w lo len v) j = if lo ≤ j ∧ j < lo + len then v.testBit (j - lo) else bit w j := by
  simp only [bit, setFld, BitVec.getLsbD_or, BitVec.getLsbD_and, BitVec.getLsbD_not, BitVec.getLsbD_ofNat, Nat.testBit_shiftLeft,
    Nat.testBit_two_pow_sub_one, Nat.testBit_mod_two_pow, hj, decide_true, Bool.true_and]
  by_cases hlo : lo ≤ j
  · by_cases hhi : j < lo + len
    · have hin : j - lo < len := by omega
      simp [hlo, hhi, hin]
    · have hout : ¬j - lo < len := by omega
      simp [hhi, hout]
  · simp [hlo]

theorem bit_setBit {n : Nat} (w : BitVec n) (i : Nat) (b : Bool) (j : Nat) (hj : j < n) :
    bit (setBit w i b) j = if j = i then b else bit w j := by
  rw [setBit, bit_setFld w i 1 b.toNat j hj]
  by_cases hij : j = i
  · subst hij; cases b <;> simp
  · rw [if_neg (by omega), if_neg hij]

theorem bit_setBit_same {n : Nat} (w : BitVec n) (i : Nat) (b : Bool) (hi : i < n) : bit (setBit w i b) i = b := by
  rw [bit_setBit w i b i hi, if_pos rfl]

theorem bit_setBit_ne {n : Nat} (w : BitVec n) (i : Nat) (b : Bool) (j : Nat) (hij : j ≠ i) (hj : j < n) : bit (setBit w i b) j = bit w j := by
  rw [bit_setBit w i b j hj, if_neg hij]

theorem testBit_fld {n : Nat} (w : BitVec n) (lo len j : Nat) : (fld w lo len).testBit j = (decide (j < len) && bit w (lo + j)) := by
  rw [fld, Nat.testBit_mod_two_pow, Nat.testBit_shiftRight]
  rfl

theorem fld_setFld_same (w : Word) (lo len v : Nat) (h : lo + len ≤ 32) : fld (setFld w lo len v) lo len = v % 2 ^ len := by
  refine Nat.eq_of_testBit_eq fun j => ?_
  rw [testBit_fld, Nat.testBit_mod_two_pow]
  by_cases hj : j < len
  · rw [bit_setFld w lo len v _ (by omega), if_pos (by omega), Nat.add_sub_cancel_left]
  · simp [hj]

theorem fld_setFld_apart (w : Word) (lo len v lo' len' : Nat) (h : lo' + len' ≤ lo ∨ lo + len ≤ lo') (h' : lo' + len' ≤ 32) :
    fld (setFld w lo len v) lo' len' = fld w lo' len' := by
  refine Nat.eq_of_testBit_eq fun j => ?_
  rw [testBit_fld, testBit_fld]
  by_cases hj : j < len'
  · rw [bit_setFld w lo len v _ (by omega), if_neg (by omega)]
  · simp [hj]

theorem fld_lt {n : Nat} (w : BitVec n) (lo len : Nat) : fld w lo len < 2 ^ len := Nat.mod_lt _ (Nat.two_pow_pos len)

/-! ## Register addresses (01 R38, R40) -/

theorem ta_div (t : Nat) {off : Nat} (h : off < 0x1000000) : ta t off / 0x1000000 = t := by unfold ta; omega

theorem ta_mod (t : Nat) {off : Nat} (h : off < 0x1000000) : ta t off % 0x1000000 = off := by unfold ta; omega

theorem not_isPmcCfg_ta (t : Nat) {off : Nat} (h : off < 0x5A0000) : ¬isPmcCfg (ta t off) := by
  rintro ⟨u, i, hi, he⟩
  unfold ta at he
  omega

theorem not_isFlt_ta (t : Nat) {off : Nat} (h : off < 0x580000) : ¬isFlt (ta t off) := by
  rintro ⟨u, o, hlo, hhi, he⟩
  unfold ta at he
  omega

/-! ## Reads after a write

The two laws take the comparison of addresses as a hypothesis: a decision on two concrete addresses would count their literals down. -/

theorem rg_setRg_same (s : State) (a : Nat) (v : Word) : rg (setRg s a v) a = v := by simp

theorem rg_setRg_ne (s : State) {a b : Nat} (v : Word) (h : a ≠ b) : rg (setRg s b v) a = rg s a := by simp [h]

/-! ## Edge messages and fault records among other changes (10 R370, 14 R507 to R512) -/

theorem Elsewhere.thenSetRg {s u : State} {ch : Nat → Prop} (h : Elsewhere s u ch) {a : Nat} (v : Word) (ha : ch a) :
    Elsewhere s (setRg u a v) ch := h.trans (elsewhere_setRg u a v ch (.inl ha))

theorem Elsewhere.thenRaiseEdge {s u : State} {ch : Nat → Prop} (h : Elsewhere s u ch) (t n : Nat) :
    Elsewhere s (raiseEdge u t n) ch := h.trans ((elsewhere_raiseEdge u t n).mono fun _ => False.elim)

theorem Elsewhere.mem_eq {s u : State} {ch : Nat → Prop} (h : Elsewhere s u ch) : u.mem = s.mem := by rw [h.rest]

theorem Elsewhere.ctxs_eq {s u : State} {ch : Nat → Prop} (h : Elsewhere s u ch) : u.ctxs = s.ctxs := by rw [h.rest]

/-- A register of a unit before the counters, and not among those named, is as it was. -/
theorem Elsewhere.rg_ta {s u : State} {ch : Nat → Prop} (h : Elsewhere s u ch) (t : Nat) {off : Nat} (hch : ¬ch (ta t off))
    (hoff : off < 0x5A0000) : rg u (ta t off) = rg s (ta t off) := (h.regs _ hch).resolve_right (not_isPmcCfg_ta t hoff)

/-- Of a tile no more than power requests move. -/
theorem Elsewhere.paceNew_eq {s u : State} {ch : Nat → Prop} (h : Elsewhere s u ch) (k : Nat) :
    (getTile u k).paceNew = (getTile s k).paceNew := (congrArg Tile.paceNew (h.tiles k) :)

theorem Elsewhere.goodWin_eq {s u : State} {ch : Nat → Prop} (h : Elsewhere s u ch) (k : Nat) :
    (getTile u k).goodWin = (getTile s k).goodWin := (congrArg Tile.goodWin (h.tiles k) :)

theorem powered_setRg (s : State) (a : Nat) (v : Word) (t d : Nat) : powered (setRg s a v) t d = powered s t d := rfl

theorem regs_requestBuf (s : State) (t : Nat) : (requestBuf s t).regs = s.regs := by
  unfold requestBuf
  dsimp only
  split <;> rfl

@[simp] theorem rg_raiseEdge (s : State) (t n a : Nat) : rg (raiseEdge s t n) a = rg s a := by
  have hregs : (raiseEdge s t n).regs = s.regs := by
    unfold raiseEdge
    split
    · rfl
    · split
      · rfl
      · dsimp only
        split
        · exact regs_requestBuf _ t
        · rfl
  rw [rg, hregs, rg]

/-- A request for BUF asks for SEC, BUF and LINK only (19 R639). -/
theorem powered_requestBuf_quad (s : State) (t : Nat) {q : Nat} (hq : q < 4) :
    powered (requestBuf s t) t (domQ q) = powered s t (domQ q) := by
  have hquad : ∀ r : BitVec 10, bit (r ||| 0x302#10) (2 + q) = bit r (2 + q) := by
    have hclear : ∀ q : Fin 4, (0x302#10).getLsbD (2 + q) = false := by decide
    intro r
    simp only [bit, BitVec.getLsbD_or, hclear ⟨q, hq⟩, Bool.or_false]
  unfold requestBuf
  dsimp only
  split
  · rfl
  · simp [powered, domQ, hquad]

/-- An edge message turns no quad on or off. -/
@[simp] theorem powered_raiseEdge_quad (s : State) (t n : Nat) {q : Nat} (hq : q < 4) :
    powered (raiseEdge s t n) t (domQ q) = powered s t (domQ q) := by
  unfold raiseEdge
  split
  · rfl
  · split
    · rfl
    · dsimp only
      split
      · exact powered_requestBuf_quad _ t hq
      · rfl

/-- An edge message reaches the controller of a tile whose BUF domain is powered. -/
theorem pend_raiseEdge (s : State) (t n : Nat) (hn : srcExists t n = true) (hp : powered s t domBUF = true) :
    (getSrc (raiseEdge s t n) (t * 1024 + n)).pend = true := by
  simp [raiseEdge, hn, hp, Src.onEdge]

/-- The addresses of the fault registers of a tile (14 R510). -/
theorem isFlt_ta (t o : Nat) (hlo : 0x580000 ≤ o) (hhi : o < 0x580500) : isFlt (ta t o) := ⟨t, o, hlo, hhi, rfl⟩

theorem isFlt_ta_add (t o k : Nat) (hlo : 0x580000 ≤ o) (hhi : o + k < 0x580500) : isFlt (ta t o + k) :=
  ⟨t, o + k, Nat.le_add_right_of_le hlo, hhi, Nat.add_assoc _ _ _⟩

section
variable {P : State → Prop} {t : Nat} (hset : ∀ u a v, isFlt a → P u → P (setRg u a v)) (hedge : ∀ u n, P u → P (raiseEdge u t n))
include hset

/-- The four words of a record are fault registers. -/
theorem record_induct (o : Nat) (hlo : 0x580000 ≤ o) (hhi : o + 12 < 0x580500) (w0 w1 w2 w3 : Word) {u : State} (hu : P u) :
    P (setRg (setRg (setRg (setRg u (ta t o) w0) (ta t o + 4) w1) (ta t o + 8) w2) (ta t o + 12) w3) := by
  refine hset _ _ _ (isFlt_ta_add t o 12 hlo hhi) (hset _ _ _ (isFlt_ta_add t o 8 hlo (by omega)) ?_)
  exact hset _ _ _ (isFlt_ta_add t o 4 hlo (by omega)) (hset _ _ _ (isFlt_ta t o hlo (by omega)) hu)

include hedge

theorem writeFltP_induct (r : FaultRec) (hr : r.parcel < 16) {u : State} (hu : P u) : P (writeFltP u t r) := by
  unfold writeFltP
  dsimp only
  refine hedge _ _ ?_
  split
  · exact hset _ _ _ (isFlt_ta_add t _ 4 (by omega) (by omega)) hu
  · exact record_induct hset _ (by omega) (by omega) _ _ _ _ hu

/-- What writing a fault record can do, said once: writes of fault registers and edge messages of its tile. -/
theorem writeFault_induct (r : FaultRec) (hr : r.parcel < 16) {u : State} (hu : P u) : P (writeFault u t r) := by
  have hi : fld (rg u (ta t 0x580014)) 0 4 < 16 := fld_lt _ 0 4
  unfold writeFault
  dsimp only
  have hlog := fun m0 m1 m2 m3 => record_induct (t := t) hset (0x580100 + fld (rg u (ta t 0x580014)) 0 4 * 16) (by omega) (by omega)
    m0 m1 m2 m3 hu
  have hindex := fun m0 m1 m2 m3 v => hset _ (ta t 0x580014) v (isFlt_ta t _ (by decide) (by decide)) (hlog m0 m1 m2 m3)
  have hparcel := fun m0 m1 m2 m3 v => writeFltP_induct hset hedge r hr (hindex m0 m1 m2 m3 v)
  refine hedge _ _ ?_
  split
  · exact hset _ _ _ (isFlt_ta t _ (by decide) (by decide)) (hparcel _ _ _ _ _)
  · exact hparcel _ _ _ _ _

end

/-- Writing a fault record touches the fault registers and the notices of it. -/
theorem elsewhere_writeFault (s : State) (t : Nat) (r : FaultRec) (hr : r.parcel < 16) : Elsewhere s (writeFault s t r) isFlt :=
  writeFault_induct (P := fun u => Elsewhere s u isFlt) (fun _ _ v ha hu => hu.thenSetRg v ha) (fun _ n hu => hu.thenRaiseEdge t n) r hr
    (.refl s _)

theorem powered_writeFault_quad (s : State) (t : Nat) (r : FaultRec) (hr : r.parcel < 16) {q : Nat} (hq : q < 4) :
    powered (writeFault s t r) t (domQ q) = powered s t (domQ q) :=
  writeFault_induct (P := fun u => powered u t (domQ q) = powered s t (domQ q)) (fun _ _ _ _ hu => hu)
    (fun u n hu => (powered_raiseEdge_quad u t n hq).trans hu) r hr rfl

/-- A record of a class that FAULT_N shows leaves FLT_STAT.UNACK set (14 R510). -/
theorem unack_writeFault (s : State) (t : Nat) (r : FaultRec) (hack : r.ack = true) :
    bit (rg (writeFault s t r) (ta t 0x580000)) 15 = true := by
  unfold writeFault
  dsimp only
  rw [if_pos hack, rg_raiseEdge, setUnack, modRg_eq, setRg_rg, if_pos rfl, bit_setBit _ _ _ _ (by decide), if_pos rfl]

end Sys2Proof.Machine

end

section
/-! ## Writes of the Datum's registers by an agent (00 R14 to R22, 02 R66, R76) -/

namespace Sys2Proof.Machine

/-- No unit's source field stands among the Datum's registers (10 R653). -/
theorem srcFields_apart_datum (t off : Nat) (hlo : 0x55F000 ≤ off) (hhi : off < 0x560000) : ∀ x ∈ srcFields t, x.addr ≠ ta t off := by
  simp only [srcFields, ta, List.forall_mem_append, List.forall_mem_flatMap, List.forall_mem_map, List.forall_mem_cons, List.mem_range,
    List.not_mem_nil, false_imp_iff, implies_true, and_true]
  exact ⟨⟨fun k hk => ⟨⟨by omega, fun f hf => by omega⟩, by omega⟩, fun m hm => by omega⟩, fun n hn => by omega⟩

theorem fieldsAt_datum (s : State) (t off : Nat) (hlo : 0x55F000 ≤ off) (hhi : off < 0x560000) : fieldsAt s t (ta t off) = [] := by
  have hnone : (srcFields t).filter (·.addr == ta t off) = [] :=
    List.filter_eq_nil_iff.mpr fun x hx => by simpa using srcFields_apart_datum t off hlo hhi x hx
  rw [fieldsAt, hnone]
  rfl

/-- At the Datum's offsets the bus writes the Datum's registers and returns no source. -/
theorem regWrite_datum (s : State) (d : Desc) (a : Acc) (t o : Nat) (v : Word) (flit : Bool) (ho : o < 0x1000) :
    regWrite s d a t (0x55F000 + o) v flit = datWrite s d t o v := by
  have hput : unitPut s d a t (0x55F000 + o) v flit = datWrite s d t o v := by
    unfold unitPut
    rw [if_neg (by omega), if_neg (by omega), if_neg (by omega), if_neg (by omega), if_neg (by omega), if_neg (by omega), if_pos (by omega),
      Nat.add_sub_cancel_left]
  have hoff : (decide (0x55F000 + o < 0x502000) || (decide (0x502400 ≤ 0x55F000 + o) && decide (0x55F000 + o < 0x510000))) = false := by
    simp only [Bool.or_eq_false_iff, Bool.and_eq_false_iff, decide_eq_false_iff_not]
    omega
  unfold regWrite unitWrite
  dsimp only
  rw [hoff, if_neg Bool.false_ne_true, if_pos (by omega), fieldsAt_datum s t _ (by omega) (by omega), hput, List.foldl_nil]

/-- An access that the checks pass is of a register that the map shows. -/
theorem regDesc_of_checkAcc {s : State} {a : Acc} {addr : Nat} {wr : Bool} (hreg : 0x500000 ≤ addr % 0x1000000)
    (hal : addr % 0x1000000 % 4 = 0) (h : checkAcc s a addr 4 wr = 0) :
    ∃ d, regDesc s a (addr / 0x1000000) (addr % 0x1000000) = some d := by
  cases hd : regDesc s a (addr / 0x1000000) (addr % 0x1000000) with
  | some d => exact ⟨d, rfl⟩
  | none =>
    have hunmapped : checkAcc s a addr 4 wr = 3 := by
      unfold checkAcc
      simp only [hal, Nat.sub_zero, hd]
      split
      · rfl
      · rw [if_neg (by omega)]
    rw [hunmapped] at h
    exact absurd h (by decide)

/-- A write that the checks pass has the register's own effect `g` after the counting. -/
theorem busWrite_of_regWrite {s : State} {a : Acc} {addr : Nat} {v : Word} (h : checkAcc s a addr 4 true = 0) (g : State → State)
    (hreg : 0x500000 ≤ addr % 0x1000000) (hal : addr % 0x1000000 % 4 = 0)
    (hg : ∀ u d, regWrite u d a (addr / 0x1000000) (addr % 0x1000000) v false = (g u, .ok)) :
    ∃ own, busWrite s a addr 4 v.toNat = (g (countAcc s a (addr / 0x1000000) 0x42 own), 0) := by
  obtain ⟨d, hd⟩ := regDesc_of_checkAcc hreg hal h
  refine ⟨d.own, ?_⟩
  unfold busWrite
  simp only [h, hd, hg, BitVec.ofNat_toNat, BitVec.setWidth_eq]
  rw [if_neg (by decide), if_neg (by omega)]

/-- A Datum register written by an agent, from the checks to the answer. -/
theorem agentWrite_datum {s : State} {ag : Agent} {t o : Nat} {v : Word} (h : MayWrite s ag (ta t (0x55F000 + o)) v) (g : State → State)
    (ho : o < 0x1000) (hal : o % 4 = 0) (hg : ∀ u d, datWrite u d t o v = (g u, .ok)) :
    ∃ u, Elsewhere s u noReg ∧ agentWrite s ag (ta t (0x55F000 + o)) v = answer (g u) ag 0 false := by
  obtain ⟨hreach, hcheck⟩ := h
  have hdiv := ta_div t (off := 0x55F000 + o) (by omega)
  have hmod := ta_mod t (off := 0x55F000 + o) (by omega)
  generalize ta t (0x55F000 + o) = addr at *
  have hwrite : ∀ u d, regWrite u d (agentAcc s ag addr v) (addr / 0x1000000) (addr % 0x1000000) v false = (g u, .ok) := fun u d => by
    rw [hdiv, hmod, regWrite_datum _ _ _ _ _ _ _ ho, hg]
  obtain ⟨own, hbus⟩ := busWrite_of_regWrite hcheck g (by omega) (by omega) hwrite
  refine ⟨_, elsewhere_countAcc s (agentAcc s ag addr v) (addr / 0x1000000) 0x42 own, ?_⟩
  rw [agentWrite_reached _ _ _ _ hreach, hbus]
  rfl

theorem accepted_answer (s : State) (ag : Agent) (v : Word) : Accepted (answer s ag v false) := by rw [Accepted, answer_accepted]

theorem rg_answer (s : State) (ag : Agent) (v : Word) (a : Nat) : rg (answer s ag v false) a = rg s a := by rw [answer_accepted]; rfl

end Sys2Proof.Machine

end

section
/-! ## The Datum's reference and its rate (02 R63 to R68) -/

namespace Sys2Proof.Machine

/-- A declared loss sets HOLD and its cause, leaves UNACK set, and moves fault registers beside them (02 R63). -/
theorem enterHold_effect (s : State) (t b : Nat) (hb : b < 32) :
    let u := enterHold s t b
    bit (rg u (ta t 0x55F014)) 0 = true ∧ bit (rg u (ta t 0x55F014)) b = true ∧ bit (rg u (ta t 0x580000)) 15 = true ∧
      Elsewhere s u (fun a => a = ta t 0x55F014 ∨ isFlt a) := by
  have hset := (Elsewhere.refl s (fun a => a = ta t 0x55F014 ∨ isFlt a)).thenSetRg (setBit (setBit (rg s (ta t 0x55F014)) b true) 0 true) (.inl rfl)
  unfold enterHold
  dsimp only
  rw [modRg_eq]
  generalize hv : (if bit (dr s t 0x14) 0 = true then _ else raiseEdge _ t 0x3C2) = v
  have hfault := elsewhere_writeFault v t { outcome := 5, cls := 0x0C, unit := 0x10, ack := true } (by decide)
  have hstat : rg v (ta t 0x55F014) = setBit (setBit (rg s (ta t 0x55F014)) b true) 0 true := by
    rw [← hv]; split <;> simp
  refine ⟨?_, ?_, unack_writeFault _ _ _ rfl, ?_⟩
  · rw [hfault.rg_ta t (not_isFlt_ta t (by decide)) (by decide), hstat]
    simp [bit_setBit]
  · rw [hfault.rg_ta t (not_isFlt_ta t (by decide)) (by decide), hstat]
    simp [bit_setBit, hb]
  · refine Elsewhere.trans ?_ (hfault.mono fun _ => .inr)
    rw [← hv]
    exact .ite hset (hset.thenRaiseEdge t _)

/-- A resumed reference clears HOLD, sets RESUMED and raises its source (02 R65). -/
theorem leaveHold_effect (s : State) (t : Nat) (hheld : bit (rg s (ta t 0x55F014)) 0 = true) :
    let u := leaveHold s t
    bit (rg u (ta t 0x55F014)) 0 = false ∧ bit (rg u (ta t 0x55F014)) 3 = true ∧
      (powered s t domBUF = true → (getSrc u (t * 1024 + 0x3C2)).pend = true) ∧ Elsewhere s u (· = ta t 0x55F014) := by
  have hrun : leaveHold s t =
      raiseEdge (setRg s (ta t 0x55F014) (setBit (setBit (rg s (ta t 0x55F014)) 0 false) 3 true)) t 0x3C2 := by
    unfold leaveHold
    rw [dr, if_pos hheld, modRg_eq]
  dsimp only
  rw [hrun, rg_raiseEdge, setRg_rg, if_pos rfl]
  have hexists : srcExists t 0x3C2 = true := by simp [srcExists]
  refine ⟨by simp [bit_setBit], by simp [bit_setBit], fun hp => pend_raiseEdge _ t _ hexists ((powered_setRg _ _ _ _ _).trans hp), ?_⟩
  exact ((Elsewhere.refl s (· = ta t 0x55F014)).thenSetRg _ rfl).thenRaiseEdge t _

/-- TMR_DADJ takes a value within ±1000 ppm, and the limit of the same sign with CLAMP otherwise (02 R68). -/
theorem dadjWrite_effect (s : State) (v : Word) :
    let u := dadjWrite s v
    (rg u (ta 0 0x55F010)).toInt = max (-1024000000) (min 1024000000 v.toInt) ∧
      (1024000000 < v.toInt ∨ v.toInt < -1024000000 → bit (rg u (ta 0 0x55F014)) 4 = true) ∧
      Elsewhere s u (fun a => a = ta 0 0x55F010 ∨ a = ta 0 0x55F014) := by
  have hset := fun w => (Elsewhere.refl s (fun a => a = ta 0 0x55F010 ∨ a = ta 0 0x55F014)).thenSetRg w (.inl rfl)
  have hclamp : ∀ w : Word, let u := modRg (setRg s (ta 0 0x55F010) w) (ta 0 0x55F014) fun w => setBit w 4 true
      rg u (ta 0 0x55F010) = w ∧ bit (rg u (ta 0 0x55F014)) 4 = true ∧ Elsewhere s u (fun a => a = ta 0 0x55F010 ∨ a = ta 0 0x55F014) :=
    fun w => ⟨by simp [ta], by simp [bit_setBit], (hset w).thenSetRg _ (.inr rfl)⟩
  unfold dadjWrite
  dsimp only
  split
  · next hhigh =>
    obtain ⟨hval, hbad, helse⟩ := hclamp (BitVec.ofInt 32 1024000000)
    have hint : (BitVec.ofInt 32 1024000000).toInt = 1024000000 := by decide
    exact ⟨by rw [hval, hint]; omega, fun _ => hbad, helse⟩
  · split
    · next hlow =>
      obtain ⟨hval, hbad, helse⟩ := hclamp (BitVec.ofInt 32 (-1024000000))
      have hint : (BitVec.ofInt 32 (-1024000000)).toInt = -1024000000 := by decide
      exact ⟨by rw [hval, hint]; omega, fun _ => hbad, helse⟩
    · next hhigh hlow =>
      refine ⟨?_, fun hout => ?_, hset v⟩
      · rw [setRg_rg, if_pos rfl]; omega
      · omega

end Sys2Proof.Machine

end

section
/-! ## The pace monitor (02 R75 to R84) -/

namespace Sys2Proof.Machine

/-- What the monitor of tile `t` keeps of one quad. -/
structure QuadPace where
  /-- its domain is powered -/
  on : Bool
  /-- it woke in the present window -/
  woke : Bool
  ctl : Word
  pace : Word
  /-- good windows in a row -/
  good : Nat
  /-- its LVL, STICKY and VALID bits of TMR_PACE_STAT -/
  level : Bool
  sticky : Bool
  valid : Bool

/-- The monitor's part of quad `q` in a state. -/
def quadPace (s : State) (t q : Nat) : QuadPace where
  on := powered s t (domQ q)
  woke := bit (getTile s t).paceNew q
  ctl := rg s (ta t 0x55F020)
  pace := rg s (ta t (0x55F030 + q * 4))
  good := vget 0 (getTile s t).goodWin q
  level := bit (rg s (ta t 0x55F024)) q
  sticky := bit (rg s (ta t 0x55F024)) (4 + q)
  valid := bit (rg s (ta t 0x55F024)) (8 + q)

/-- A complete window's count shown in COUNT and MIN, with VALID (02 R79). -/
def QuadPace.count (x : QuadPace) (c : Nat) : QuadPace :=
  { x with pace := setFld (setFld x.pace 0 10 c) 16 10 (min (fld x.pace 16 10) c), valid := true }

/-- A count below FLOOR (02 R77). -/
def QuadPace.below (x : QuadPace) : QuadPace := { x with good := 0, level := true, sticky := true }

/-- Any other count: `g` good windows in a row, of which eight clear LVL (02 R78). -/
def QuadPace.above (x : QuadPace) (g : Nat) : QuadPace := { x with good := min g 8, level := !decide (8 ≤ g) && x.level }

/-- The good windows in a row after a count that is not below FLOOR. -/
def QuadPace.goodAfter (x : QuadPace) (c : Nat) : Nat := if fld x.ctl 0 10 + fld x.ctl 12 4 ≤ c then x.good + 1 else 0

/-- The end of a window for a quad alone: the model's `paceQuad` seen through `quadPace` (`quadPace_paceQuad_same`). -/
def QuadPace.window (x : QuadPace) (n : Nat) : QuadPace :=
  if !x.on then x
  else if x.woke then { x with woke := false }
  else if fld x.ctl 0 10 ≠ 0 ∧ min n 1023 < fld x.ctl 0 10 then (x.count (min n 1023)).below
  else (x.count (min n 1023)).above (x.goodAfter (min n 1023))

theorem quadPace_raiseEdge (s : State) (t n : Nat) {q : Nat} (hq : q < 4) : quadPace (raiseEdge s t n) t q = quadPace s t q := by
  have hmsg := elsewhere_raiseEdge s t n
  simp only [quadPace, rg_raiseEdge, powered_raiseEdge_quad s t n hq, hmsg.paceNew_eq, hmsg.goodWin_eq]

theorem quadPace_writeFault (s : State) (t : Nat) (r : FaultRec) (hr : r.parcel < 16) {q : Nat} (hq : q < 4) :
    quadPace (writeFault s t r) t q = quadPace s t q := by
  have hfault := elsewhere_writeFault s t r hr
  have hrg : ∀ off, off < 0x580000 → rg (writeFault s t r) (ta t off) = rg s (ta t off) := fun off hoff =>
    hfault.rg_ta t (not_isFlt_ta t hoff) (by omega)
  simp only [quadPace, powered_writeFault_quad s t r hr hq, hfault.paceNew_eq, hfault.goodWin_eq, hrg 0x55F020 (by decide),
    hrg 0x55F024 (by decide), hrg (0x55F030 + q * 4) (by omega)]

end Sys2Proof.Machine

end

section
/-! ## Pace windows (02 R77 to R79) -/

namespace Sys2Proof.Machine

theorem vget_vset {n : Nat} (d : Nat) (v : Vector Nat n) (i j x : Nat) (hj : j < n) :
    vget d (vset v i x) j = if i = j then x else vget d v j := by
  unfold vget vset
  rw [Vector.getElem?_setIfInBounds]
  by_cases hij : i = j
  · simp [hij, hj]
  · simp [hij]

section
variable (s : State) (t q q' : Nat)

theorem pace_ne {off : Nat} (hoff : off < 0x55F030) : ta t off ≠ ta t (0x55F030 + q * 4) := by unfold ta; omega

/-- A register write moves what the monitor keeps in registers. -/
theorem quadPace_setRg (a : Nat) (w : Word) : quadPace (setRg s a w) t q =
    let stat := rg (setRg s a w) (ta t 0x55F024)
    { quadPace s t q with
      ctl := rg (setRg s a w) (ta t 0x55F020), pace := rg (setRg s a w) (ta t (0x55F030 + q * 4))
      level := bit stat q, sticky := bit stat (4 + q), valid := bit stat (8 + q) } := rfl

/-- A write of TMR_PACE_STAT shows in the flags of every quad. -/
theorem quadPace_setStat (w : Word) : quadPace (setRg s (ta t 0x55F024) w) t q =
    { quadPace s t q with level := bit w q, sticky := bit w (4 + q), valid := bit w (8 + q) } := by
  have hctl : ta t 0x55F020 ≠ ta t 0x55F024 := by unfold ta; omega
  have hpace : ta t (0x55F030 + q * 4) ≠ ta t 0x55F024 := (pace_ne t q (by decide)).symm
  rw [quadPace_setRg, rg_setRg_ne s w hctl, rg_setRg_ne s w hpace, rg_setRg_same]
  rfl

theorem quadPace_setPace_same (w : Word) : quadPace (setRg s (ta t (0x55F030 + q * 4)) w) t q = { quadPace s t q with pace := w } := by
  have hctl : ta t 0x55F020 ≠ ta t (0x55F030 + q * 4) := pace_ne t q (by decide)
  have hstat : ta t 0x55F024 ≠ ta t (0x55F030 + q * 4) := pace_ne t q (by decide)
  rw [quadPace_setRg, rg_setRg_ne s w hctl, rg_setRg_ne s w hstat, rg_setRg_same]
  rfl

theorem quadPace_setPace_other (w : Word) (h : q ≠ q') : quadPace (setRg s (ta t (0x55F030 + q' * 4)) w) t q = quadPace s t q := by
  have hctl : ta t 0x55F020 ≠ ta t (0x55F030 + q' * 4) := pace_ne t q' (by decide)
  have hstat : ta t 0x55F024 ≠ ta t (0x55F030 + q' * 4) := pace_ne t q' (by decide)
  have hpace : ta t (0x55F030 + q * 4) ≠ ta t (0x55F030 + q' * 4) := by unfold ta; omega
  rw [quadPace_setRg, rg_setRg_ne s w hctl, rg_setRg_ne s w hstat, rg_setRg_ne s w hpace]
  rfl

theorem quadPace_setGood (g : Vector Nat 4) : quadPace (setTile s t { getTile s t with goodWin := g }) t q =
    { quadPace s t q with good := vget 0 g q } := by
  simp only [quadPace, powered, setTile_getTile, setTile_rg, if_true]

theorem quadPace_setNew (b : BitVec 4) : quadPace (setTile s t { getTile s t with paceNew := b }) t q =
    { quadPace s t q with woke := bit b q } := by
  simp only [quadPace, powered, setTile_getTile, setTile_rg, if_true]

end

/-- The count shown in PACEq, with VALID. -/
def showCount (s : State) (t q c : Nat) : State :=
  let s := modRg s (ta t (0x55F030 + q * 4)) fun w => setFld (setFld w 0 10 c) 16 10 (min (fld w 16 10) c)
  modRg s (ta t 0x55F024) fun w => setBit w (8 + q) true

/-- A count below FLOOR: LVL and STICKY, and no good window. -/
def fallBelow (s : State) (t q : Nat) : State :=
  let s := modTile s t fun x => { x with goodWin := vset x.goodWin q 0 }
  modRg s (ta t 0x55F024) fun w => setBit (setBit w q true) (4 + q) true

/-- `g` good windows in a row; eight clear LVL. -/
def stayAbove (s : State) (t q g : Nat) : State :=
  let s := modTile s t fun x => { x with goodWin := vset x.goodWin q (min g 8) }
  if 8 ≤ g then modRg s (ta t 0x55F024) fun w => setBit w q false else s

/-- The source of a pace alarm, with its fault record where TMR_PACE_CTL asks for one. -/
def paceAlarm (s : State) (t q : Nat) (record : Bool) : State :=
  let s := raiseEdge s t 0x3C1
  if record then writeFault s t { outcome := 5, cls := 0x0E, unit := 0x11, inst := q, ack := true } else s

section
variable (s : State) (t : Nat) {q q' : Nat} (hq : q < 4)

/-- The model's `paceQuad` by its cases. -/
theorem paceQuad_eq (q n : Nat) : paceQuad s t q n =
    if !(quadPace s t q).on then s
    else if (quadPace s t q).woke then setTile s t { getTile s t with paceNew := setBit (getTile s t).paceNew q false }
    else if fld (quadPace s t q).ctl 0 10 ≠ 0 ∧ min n 1023 < fld (quadPace s t q).ctl 0 10 then
      paceAlarm (fallBelow (showCount s t q (min n 1023)) t q) t q (bit (quadPace s t q).ctl 16)
    else stayAbove (showCount s t q (min n 1023)) t q
      (if fld (quadPace s t q).ctl 0 10 + fld (quadPace s t q).ctl 12 4 ≤ min n 1023 then
        (quadPace (showCount s t q (min n 1023)) t q).good + 1 else 0) := by
  have hctl : dr s t 0x20 = (quadPace s t q).ctl := rfl
  unfold paceQuad
  rw [hctl]
  rfl

include hq

theorem quadPace_paceAlarm (i : Nat) (record : Bool) : quadPace (paceAlarm s t i record) t q = quadPace s t q := by
  unfold paceAlarm
  dsimp only
  split
  · exact (quadPace_writeFault _ t _ (Nat.zero_lt_succ 15) hq).trans (quadPace_raiseEdge s t _ hq)
  · exact quadPace_raiseEdge s t _ hq

theorem quadPace_showCount_same (c : Nat) : quadPace (showCount s t q c) t q = (quadPace s t q).count c := by
  unfold showCount
  rw [modRg_eq, modRg_eq, quadPace_setStat, quadPace_setPace_same, rg_setRg_ne s _ (pace_ne t q (by decide))]
  simp (disch := omega) only [bit_setBit_same, bit_setBit_ne]
  rfl

theorem quadPace_fallBelow_same : quadPace (fallBelow s t q) t q = (quadPace s t q).below := by
  unfold fallBelow
  rw [modRg_eq, modTile_eq, quadPace_setStat, quadPace_setGood, setTile_rg]
  simp (disch := omega) only [bit_setBit_same, bit_setBit_ne, vget_vset, if_true]
  rfl

theorem quadPace_stayAbove_same (g : Nat) : quadPace (stayAbove s t q g) t q = (quadPace s t q).above g := by
  unfold stayAbove QuadPace.above
  dsimp only
  split
  · next hg =>
    rw [modRg_eq, modTile_eq, quadPace_setStat, quadPace_setGood, setTile_rg]
    simp (disch := omega) only [bit_setBit_same, bit_setBit_ne, vget_vset, if_true, hg, decide_true, Bool.not_true, Bool.false_and]
    rfl
  · next hg =>
    rw [modTile_eq, quadPace_setGood]
    simp (disch := omega) only [vget_vset, if_true, hg, decide_false, Bool.not_false, Bool.true_and]

/-- The end of a window for a quad is that of its own part. -/
theorem quadPace_paceQuad_same (n : Nat) : quadPace (paceQuad s t q n) t q = (quadPace s t q).window n := by
  have hnew : bit (setBit (getTile s t).paceNew q false) q = false := bit_setBit_same _ _ _ hq
  rw [paceQuad_eq]
  unfold QuadPace.window
  split
  · rfl
  · split
    · rw [quadPace_setNew, hnew]
    · split
      · rw [quadPace_paceAlarm _ _ hq, quadPace_fallBelow_same _ _ hq, quadPace_showCount_same _ _ hq]
      · rw [quadPace_stayAbove_same _ _ hq, quadPace_showCount_same _ _ hq]
        rfl

variable (hq' : q' < 4) (hne : q ≠ q')
include hq' hne

theorem quadPace_showCount_other (c : Nat) : quadPace (showCount s t q' c) t q = quadPace s t q := by
  unfold showCount
  rw [modRg_eq, modRg_eq, quadPace_setStat, quadPace_setPace_other _ _ _ _ _ hne, rg_setRg_ne s _ (pace_ne t q' (by decide))]
  simp (disch := omega) only [bit_setBit_ne]
  rfl

theorem quadPace_fallBelow_other : quadPace (fallBelow s t q') t q = quadPace s t q := by
  unfold fallBelow
  rw [modRg_eq, modTile_eq, quadPace_setStat, quadPace_setGood, setTile_rg]
  simp (disch := omega) only [bit_setBit_ne, vget_vset, hne.symm, if_false]
  rfl

theorem quadPace_stayAbove_other (g : Nat) : quadPace (stayAbove s t q' g) t q = quadPace s t q := by
  unfold stayAbove
  dsimp only
  split
  · rw [modRg_eq, modTile_eq, quadPace_setStat, quadPace_setGood, setTile_rg]
    simp (disch := omega) only [bit_setBit_ne, vget_vset, hne.symm, if_false]
    rfl
  · rw [modTile_eq, quadPace_setGood]
    simp (disch := omega) only [vget_vset, hne.symm, if_false]
    rfl

/-- Another quad's window leaves the quad's part alone. -/
theorem quadPace_paceQuad_other (n : Nat) : quadPace (paceQuad s t q' n) t q = quadPace s t q := by
  have hnew : bit (setBit (getTile s t).paceNew q' false) q = bit (getTile s t).paceNew q := bit_setBit_ne _ _ _ _ hne hq
  rw [paceQuad_eq]
  split
  · rfl
  · split
    · rw [quadPace_setNew, hnew]
      rfl
    · split
      · rw [quadPace_paceAlarm _ _ hq, quadPace_fallBelow_other _ _ hq hq' hne, quadPace_showCount_other _ _ hq hq' hne]
      · rw [quadPace_stayAbove_other _ _ hq hq' hne, quadPace_showCount_other _ _ hq hq' hne]

end

end Sys2Proof.Machine

end

section
/-! ## A window of four quads -/

namespace Sys2Proof.Machine

/-- What the end of a window with count `n` makes of a powered quad (02 R77 to R79). -/
def WindowSeen (x y : QuadPace) (n : Nat) : Prop :=
  (x.woke = true → y.pace = x.pace ∧ y.woke = false) ∧
  (x.woke = false → fld y.pace 0 10 = min n 1023 ∧ y.valid = true ∧ fld y.pace 16 10 = min (fld x.pace 16 10) (min n 1023) ∧
    (fld x.ctl 0 10 ≠ 0 → min n 1023 < fld x.ctl 0 10 → y.level = true ∧ y.sticky = true ∧ y.good = 0) ∧
    (fld x.ctl 0 10 = 0 ∨ fld x.ctl 0 10 ≤ min n 1023 → fld x.ctl 0 10 + fld x.ctl 12 4 ≤ min n 1023 →
      y.good = min (x.good + 1) 8 ∧ (7 ≤ x.good → y.level = false)))

theorem fld_count_pace (x : QuadPace) {c : Nat} (hc : c < 2 ^ 10) : fld (x.count c).pace 0 10 = c := by
  rw [QuadPace.count, fld_setFld_apart _ _ _ _ _ _ (by decide) (by decide), fld_setFld_same _ _ _ _ (by decide), Nat.mod_eq_of_lt hc]

theorem fld_count_minimum (x : QuadPace) (c : Nat) : fld (x.count c).pace 16 10 = min (fld x.pace 16 10) c := by
  have hmin : min (fld x.pace 16 10) c < 2 ^ 10 := Nat.lt_of_le_of_lt (Nat.min_le_left _ _) (fld_lt _ 16 10)
  rw [QuadPace.count, fld_setFld_same _ _ _ _ (by decide), Nat.mod_eq_of_lt hmin]

/-- The window of a quad alone does what 02 R77 to R79 say. -/
theorem windowSeen_window (x : QuadPace) (n : Nat) (hon : x.on = true) : WindowSeen x (x.window n) n := by
  have hc : min n 1023 < 2 ^ 10 := by omega
  unfold QuadPace.window
  rw [if_neg (by rw [hon]; decide)]
  split
  · next hwoke => exact ⟨fun _ => ⟨rfl, rfl⟩, fun h => absurd (h.symm.trans hwoke) (by decide)⟩
  · next hwoke =>
    refine ⟨fun h => absurd h hwoke, fun _ => ?_⟩
    split
    · next hlow =>
      refine ⟨fld_count_pace x hc, rfl, fld_count_minimum x _, fun _ _ => ⟨rfl, rfl, rfl⟩, fun hfloor _ => ?_⟩
      obtain ⟨hset, hless⟩ := hlow
      omega
    · next hlow =>
      refine ⟨fld_count_pace x hc, rfl, fld_count_minimum x _, fun hset hless => absurd ⟨hset, hless⟩ hlow, fun _ hgood => ?_⟩
      have hafter : x.goodAfter (min n 1023) = x.good + 1 := if_pos hgood
      rw [hafter]
      exact ⟨rfl, fun hseven => by simp [QuadPace.above, hseven]⟩

/-- Buffer memory and contexts. -/
def ram (s : State) : List Host.Cell × Sparse Ctx := (s.mem, s.ctxs)

theorem ram_setRg (s : State) (a : Nat) (v : Word) : ram (setRg s a v) = ram s := rfl

theorem ram_setTile (s : State) (t : Nat) (x : Tile) : ram (setTile s t x) = ram s := rfl

theorem ram_of_elsewhere {s u : State} {ch : Nat → Prop} (h : Elsewhere s u ch) : ram u = ram s := by rw [ram, h.mem_eq, h.ctxs_eq, ram]

theorem ram_showCount (s : State) (t q c : Nat) : ram (showCount s t q c) = ram s := by
  rw [showCount, modRg_eq, modRg_eq, ram_setRg, ram_setRg]

theorem ram_stayAbove (s : State) (t q g : Nat) : ram (stayAbove s t q g) = ram s := by
  unfold stayAbove
  dsimp only
  split
  · rw [modRg_eq, modTile_eq, ram_setRg, ram_setTile]
  · rw [modTile_eq, ram_setTile]

theorem ram_paceAlarm (s : State) (t q : Nat) (record : Bool) : ram (paceAlarm s t q record) = ram s := by
  have hmsg := ram_of_elsewhere (elsewhere_raiseEdge s t 0x3C1)
  unfold paceAlarm
  dsimp only
  split
  · exact (ram_of_elsewhere (elsewhere_writeFault _ t _ (Nat.zero_lt_succ 15))).trans hmsg
  · exact hmsg

theorem ram_paceQuad (s : State) (t q n : Nat) : ram (paceQuad s t q n) = ram s := by
  rw [paceQuad_eq]
  split
  · rfl
  · split
    · exact ram_setTile _ _ _
    · split
      · rw [ram_paceAlarm, fallBelow, modRg_eq, modTile_eq, ram_setRg, ram_setTile, ram_showCount]
      · rw [ram_stayAbove, ram_showCount]

/-- The quads of a list of counts, numbered from `k`, at the end of a window. -/
def paceFrom (s : State) (t k : Nat) (c : List Nat) : State := (c.zipIdx k).foldl (fun s x => paceQuad s t x.2 x.1) s

theorem paceEnd_eq (s : State) (t : Nat) (c : List Nat) : paceEnd s t c = paceFrom s t 0 c := rfl

theorem paceFrom_cons (s : State) (t k n : Nat) (c : List Nat) : paceFrom s t k (n :: c) = paceFrom (paceQuad s t k n) t (k + 1) c := rfl

theorem ram_paceFrom (t : Nat) (c : List Nat) : ∀ (s : State) (k : Nat), ram (paceFrom s t k c) = ram s := by
  induction c with
  | nil => intro s k; rfl
  | cons n c ih => intro s k; rw [paceFrom_cons, ih, ram_paceQuad]

/-- The quads of the list leave an earlier quad's part alone. -/
theorem quadPace_paceFrom_before (t : Nat) {q : Nat} (hq : q < 4) (c : List Nat) : ∀ (s : State) (k : Nat), q < k → k + c.length ≤ 4 →
    quadPace (paceFrom s t k c) t q = quadPace s t q := by
  induction c with
  | nil => intro s k _ _; rfl
  | cons n c ih =>
    intro s k hk hlen
    rw [List.length_cons] at hlen
    rw [paceFrom_cons, ih _ _ (by omega) (by omega), quadPace_paceQuad_other _ _ hq (by omega) (by omega)]

/-- The end of a window is each quad's own window. -/
theorem quadPace_paceFrom (t n : Nat) (l : List Nat) : ∀ (s : State) (k i : Nat), k + l.length ≤ 4 → l[i]? = some n →
    quadPace (paceFrom s t k l) t (k + i) = (quadPace s t (k + i)).window n := by
  induction l with
  | nil => intro s k i _ hi; simp at hi
  | cons m l ih =>
    intro s k i hlen hi
    rw [List.length_cons] at hlen
    rw [paceFrom_cons]
    cases i with
    | zero =>
      obtain rfl : m = n := by simpa using hi
      have hk : k < 4 := by omega
      simp only [Nat.add_zero]
      rw [quadPace_paceFrom_before t hk _ _ _ (Nat.lt_succ_self k) (by omega), quadPace_paceQuad_same _ _ hk]
    | succ i =>
      have hlast : i < l.length := (List.getElem?_eq_some_iff.mp (by simpa using hi)).1
      rw [show k + (i + 1) = k + 1 + i by omega, ih _ _ _ (by omega) (by simpa using hi),
        quadPace_paceQuad_other _ _ (by omega) (by omega) (by omega)]

end Sys2Proof.Machine

end

section
/-! ## TMR_PACE_CTL (02 R76, R81) -/

namespace Sys2Proof.Machine

/-- The minima of the first `n` quads at their reset value. -/
def resetMinima (s : State) (t n : Nat) : State :=
  (List.range n).foldl (fun s q => modRg s (ta t (0x55F030 + q * 4)) fun w => setFld w 16 10 0x3FF) s

theorem resetMinima_succ (s : State) (t n : Nat) : resetMinima s t (n + 1) =
    setRg (resetMinima s t n) (ta t (0x55F030 + n * 4)) (setFld (rg (resetMinima s t n) (ta t (0x55F030 + n * 4))) 16 10 0x3FF) := by
  rw [resetMinima, List.range_succ, List.foldl_append]
  rfl

/-- The model's write of TMR_PACE_CTL by its cases. -/
theorem paceCtl_eq (s : State) (t : Nat) (v : Word) : paceCtl s t v =
    if fld v 0 10 < 400 then setRg s (ta t 0x55F024) (setBit (rg s (ta t 0x55F024)) 13 true)
    else if bit v 17 then resetMinima (setRg s (ta t 0x55F020) (v &&& 0x1F3FF)) t 4 else setRg s (ta t 0x55F020) (v &&& 0x1F3FF) := rfl

theorem rg_resetMinima_other (s : State) (t a n : Nat) (ha : ∀ q, q < n → a ≠ ta t (0x55F030 + q * 4)) :
    rg (resetMinima s t n) a = rg s a := by
  induction n with
  | zero => rfl
  | succ n ih => rw [resetMinima_succ, rg_setRg_ne _ _ (ha n (Nat.lt_succ_self n)), ih fun q hq => ha q (by omega)]

theorem rg_resetMinima_pace (s : State) (t q n : Nat) (hq : q < n) :
    rg (resetMinima s t n) (ta t (0x55F030 + q * 4)) = setFld (rg s (ta t (0x55F030 + q * 4))) 16 10 0x3FF := by
  have hne : ∀ p, p ≠ q → ta t (0x55F030 + q * 4) ≠ ta t (0x55F030 + p * 4) := fun p hp => by unfold ta; omega
  induction n with
  | zero => exact absurd hq (Nat.not_lt_zero q)
  | succ n ih =>
    rw [resetMinima_succ]
    by_cases hqn : n = q
    · subst hqn
      rw [rg_setRg_same, rg_resetMinima_other s t _ n fun p hp => hne p (by omega)]
    · rw [rg_setRg_ne _ _ (hne n hqn), ih (by omega)]

theorem elsewhere_resetMinima (s : State) (t n : Nat) :
    Elsewhere s (resetMinima s t n) (fun a => ∃ q, q < n ∧ a = ta t (0x55F030 + q * 4)) := by
  induction n with
  | zero => exact .refl s _
  | succ n ih =>
    rw [resetMinima_succ]
    exact (ih.mono fun a ⟨q, hq, ha⟩ => ⟨q, by omega, ha⟩).thenSetRg _ ⟨n, Nat.lt_succ_self n, rfl⟩

/-- A FLOOR that is too low is ignored with BADW (02 R76). -/
theorem paceCtl_ignored (s : State) (t : Nat) (v : Word) (h : fld v 0 10 < 400) :
    let u := paceCtl s t v
    rg u (ta t 0x55F020) = rg s (ta t 0x55F020) ∧ bit (rg u (ta t 0x55F024)) 13 = true ∧ Elsewhere s u (· = ta t 0x55F024) := by
  have hne : ta t 0x55F020 ≠ ta t 0x55F024 := by unfold ta; omega
  dsimp only
  rw [paceCtl_eq, if_pos h, rg_setRg_ne _ _ hne, rg_setRg_same, bit_setBit_same _ _ _ (by decide)]
  exact ⟨rfl, rfl, (Elsewhere.refl s (· = ta t 0x55F024)).thenSetRg _ rfl⟩

/-- Any other value is taken, and RSTMIN resets the minima beside it (02 R76, R81). -/
theorem paceCtl_taken (s : State) (t : Nat) (v : Word) (h : 400 ≤ fld v 0 10) :
    let u := paceCtl s t v
    rg u (ta t 0x55F020) = v &&& 0x1F3FF ∧ (bit v 17 = true → ∀ q, q < 4 →
        rg u (ta t (0x55F030 + q * 4)) = setFld (rg s (ta t (0x55F030 + q * 4))) 16 10 0x3FF) ∧
      Elsewhere s u (fun a => a = ta t 0x55F020 ∨ ∃ q, q < 4 ∧ a = ta t (0x55F030 + q * 4)) := by
  have hset := (Elsewhere.refl s (fun a => a = ta t 0x55F020 ∨ ∃ q, q < 4 ∧ a = ta t (0x55F030 + q * 4))).thenSetRg (v &&& 0x1F3FF) (.inl rfl)
  have hpace : ∀ q, ta t 0x55F020 ≠ ta t (0x55F030 + q * 4) := fun q => pace_ne t q (by decide)
  dsimp only
  rw [paceCtl_eq, if_neg (Nat.not_lt.mpr h)]
  split
  · refine ⟨?_, fun _ q hq => ?_, hset.trans ((elsewhere_resetMinima _ t 4).mono fun _ => .inr)⟩
    · rw [rg_resetMinima_other _ _ _ _ fun q _ => hpace q, rg_setRg_same]
    · rw [rg_resetMinima_pace _ _ _ _ hq, rg_setRg_ne _ _ (hpace q).symm]
  · next hbit => exact ⟨rg_setRg_same _ _ _, fun hset17 => absurd hset17 hbit, hset⟩

/-- RSTMIN written with the other fields as they stand: FLOOR stays, bit 17 is set, and the fields are taken as they were. -/
theorem rstmin_word (w : Word) : fld ((w &&& 0x1F3FF) ||| 0x20000) 0 10 = fld w 0 10 ∧ bit ((w &&& 0x1F3FF) ||| 0x20000) 17 = true ∧
    ((w &&& 0x1F3FF) ||| 0x20000) &&& 0x1F3FF = w &&& (0x1F3FF : Word) := by
  refine ⟨Nat.eq_of_testBit_eq fun j => ?_, ?_, ?_⟩
  · have hmask : ∀ j : Fin 10, (0x1F3FF : Word).getLsbD j = true ∧ (0x20000 : Word).getLsbD j = false := by decide
    rw [testBit_fld, testBit_fld]
    by_cases hj : j < 10
    · obtain ⟨hkeep, hclear⟩ := hmask ⟨j, hj⟩
      rw [Nat.zero_add, bit, BitVec.getLsbD_or, BitVec.getLsbD_and, hkeep, hclear, Bool.and_true, Bool.or_false, bit]
    · simp [hj]
  · rw [bit, BitVec.getLsbD_or, show (0x20000 : Word).getLsbD 17 = true by decide, Bool.or_true]
  · have hapart : (0x20000 : Word) &&& 0x1F3FF = 0#32 := by decide
    rw [BitVec.and_comm, BitVec.and_or_distrib_left, BitVec.and_comm _ 0x20000, hapart, BitVec.or_zero, BitVec.and_comm, BitVec.and_assoc,
      BitVec.and_self]

end Sys2Proof.Machine

end

section
/-! ## The commands of the statement, one by one -/

namespace Sys2Proof.Machine

/-- The counting before a register's own effect and the answer after it move nothing that the effect's frame names as unmoved. -/
theorem Elsewhere.around {s w u : State} {ch : Nat → Prop} (hcount : Elsewhere s w noReg) (h : Elsewhere w u ch) (ag : Agent) :
    Elsewhere s (answer u ag 0 false) ch := ((hcount.mono fun _ => False.elim).trans h).trans (elsewhere_answer u ag 0 ch)

theorem tmrDadjWrite_effect {s : State} {ag : Agent} {v : Word} (hmay : MayWrite s ag (ta 0 0x55F010) v) :
    ∃ u, exec (.tmrDadjWrite ag 0 v) s = .next u ∧ Accepted u ∧
      (rg u (ta 0 0x55F010)).toInt = max (-1024000000) (min 1024000000 v.toInt) ∧
      (1024000000 < v.toInt ∨ v.toInt < -1024000000 → bit (rg u (ta 0 0x55F014)) 4 = true) ∧
      Elsewhere s u (fun a => a = ta 0 0x55F010 ∨ a = ta 0 0x55F014) := by
  obtain ⟨w, hcount, hrun⟩ := agentWrite_datum (o := 0x10) hmay (dadjWrite · v) (by decide) (by decide) fun _ _ => rfl
  obtain ⟨hval, hbad, helse⟩ := dadjWrite_effect w v
  refine ⟨_, congrArg Host.Outcome.next hrun, accepted_answer _ _ _, ?_, ?_, hcount.around helse ag⟩
  · rw [rg_answer]; exact hval
  · rw [rg_answer]; exact hbad

/-- After a window each powered quad's part is what its count makes of it; memory and contexts stand. -/
theorem paceEnd_effect (s : State) (t q0 q1 q2 q3 : Nat) : ram (paceEnd s t [q0, q1, q2, q3]) = ram s ∧
    ∀ q n, [q0, q1, q2, q3][q]? = some n → powered s t (domQ q) = true →
      WindowSeen (quadPace s t q) (quadPace (paceEnd s t [q0, q1, q2, q3]) t q) n := by
  refine ⟨ram_paceFrom t _ s 0, fun q n hq hon => ?_⟩
  have hquad := quadPace_paceFrom t n [q0, q1, q2, q3] s 0 q (Nat.le_refl 4) hq
  rw [Nat.zero_add] at hquad
  rw [paceEnd_eq, hquad]
  exact windowSeen_window (quadPace s t q) n hon

theorem paceCtlWrite_effect {s : State} {ag : Agent} {t : Nat} {v : Word} (hmay : MayWrite s ag (ta t 0x55F020) v) :
    ∃ u, exec (.paceCtlWrite ag t v) s = .next u ∧ Accepted u ∧ u.mem = s.mem ∧
      (if fld v 0 10 < 400 then rg u (ta t 0x55F020) = rg s (ta t 0x55F020) ∧ bit (rg u (ta t 0x55F024)) 13 = true
       else rg u (ta t 0x55F020) = v &&& 0x1F3FF ∧ rg u (ta t 0x55F024) = rg s (ta t 0x55F024)) := by
  obtain ⟨w, hcount, hrun⟩ := agentWrite_datum (o := 0x20) hmay (paceCtl · t v) (by decide) (by decide) fun _ _ => rfl
  refine ⟨_, congrArg Host.Outcome.next hrun, accepted_answer _ _ _, ?_⟩
  split
  · next hlow =>
    obtain ⟨hctl, hbad, helse⟩ := paceCtl_ignored w t v hlow
    rw [rg_answer, rg_answer]
    exact ⟨(hcount.around helse ag).mem_eq, hctl.trans (hcount.rg_ta t id (by decide)), hbad⟩
  · next hhigh =>
    obtain ⟨hctl, _, helse⟩ := paceCtl_taken w t v (Nat.not_lt.mp hhigh)
    have hstat : ¬(ta t 0x55F024 = ta t 0x55F020 ∨ ∃ q, q < 4 ∧ ta t 0x55F024 = ta t (0x55F030 + q * 4)) := by
      rintro (h | ⟨q, _, h⟩)
      · unfold ta at h; omega
      · exact pace_ne t q (by decide) h
    refine ⟨(hcount.around helse ag).mem_eq, ?_, (hcount.around helse ag).rg_ta t hstat (by decide)⟩
    rw [rg_answer]
    exact hctl

theorem rstmin_effect {s : State} {ag : Agent} {t : Nat} (hmay : MayWrite s ag (ta t 0x55F020) ((rg s (ta t 0x55F020) &&& 0x1F3FF) ||| 0x20000))
    (hfloor : 400 ≤ fld (rg s (ta t 0x55F020)) 0 10) :
    ∃ u, exec (.rstmin ag t) s = .next u ∧ Accepted u ∧ rg u (ta t 0x55F020) = rg s (ta t 0x55F020) &&& 0x1F3FF ∧
      (∀ q, q < 4 → fld (rg u (ta t (0x55F030 + q * 4))) 16 10 = 0x3FF ∧
        fld (rg u (ta t (0x55F030 + q * 4))) 0 10 = fld (rg s (ta t (0x55F030 + q * 4))) 0 10) ∧
      Elsewhere s u (fun a => a = ta t 0x55F020 ∨ ∃ q, q < 4 ∧ a = ta t (0x55F030 + q * 4)) := by
  obtain ⟨hkeep, hset, hmask⟩ := rstmin_word (rg s (ta t 0x55F020))
  obtain ⟨w, hcount, hrun⟩ := agentWrite_datum (o := 0x20) hmay (paceCtl · t _) (by decide) (by decide) fun _ _ => rfl
  obtain ⟨hctl, hpace, helse⟩ := paceCtl_taken w t _ (hkeep.symm ▸ hfloor)
  refine ⟨_, congrArg Host.Outcome.next hrun, accepted_answer _ _ _, ?_, fun q hq => ?_, hcount.around helse ag⟩
  · rw [rg_answer]
    exact hctl.trans hmask
  · rw [rg_answer, hpace hset q hq, hcount.rg_ta t id (by omega), fld_setFld_same _ _ _ _ (by decide),
      fld_setFld_apart _ _ _ _ _ _ (by decide) (by decide)]
    exact ⟨rfl, rfl⟩

/-- Settles O40: the reference's commands and the clamp by their effects, the window by each quad's own window, and the writes of TMR_PACE_CTL
by the Datum's register write. -/
theorem datumFollowsReferenceAndPaceIsWatched : Obligations.DatumFollowsReferenceAndPaceIsWatched := by
  unfold Obligations.DatumFollowsReferenceAndPaceIsWatched
  intro s t ht
  have hruns : s.begun = true → tileRuns s t = true := fun hb => by simp [tileRuns, hb, ht]
  refine ⟨fun hb => ?lost, fun hb => ?range, fun hb hheld => ?resumed, fun ag v => tmrDadjWrite_effect, fun hb q0 q1 q2 q3 => ?window,
    fun ag v => paceCtlWrite_effect, fun ag => rstmin_effect⟩
  case lost =>
    obtain ⟨hhold, hcause, hunack, helse⟩ := enterHold_effect s t 1 (by decide)
    exact ⟨_, congrArg Host.Outcome.next (if_pos (hruns hb)), hhold, hcause, hunack, helse⟩
  case range =>
    obtain ⟨hhold, hcause, hunack, helse⟩ := enterHold_effect s t 2 (by decide)
    exact ⟨_, congrArg Host.Outcome.next (if_pos (hruns hb)), hhold, hcause, hunack, helse⟩
  case resumed =>
    exact ⟨_, congrArg Host.Outcome.next (if_pos (hruns hb)), leaveHold_effect s t hheld⟩
  case window =>
    obtain ⟨hram, hseen⟩ := paceEnd_effect s t q0 q1 q2 q3
    exact ⟨_, congrArg Host.Outcome.next (if_pos (hruns hb)), congrArg Prod.fst hram, congrArg Prod.snd hram, hseen⟩

end Sys2Proof.Machine

end
